-- ==== Sys2Proof/Word.lean ====
section
/-! DEFINITION. The units of data of ESPLINK: bytes, the two wider widths that stand in a wire message, and the
four-byte field that is never read as a number (00_scope.md section 5.1; 20_memory.md R48, R50). -/

namespace Sys2Proof

/-- A byte, `0x00..0xFF` (00_scope.md section 5.1). -/
abbrev Byte := BitVec 8

/-- The 16-bit length of a wire message (30_encoding.md R66, R67). -/
abbrev Half := BitVec 16

/-- A 32-bit checksum or register address (30_encoding.md R66, R68). -/
abbrev Word := BitVec 32

/-- A sequence of bytes; index 0 is the first byte on the wire (00_scope.md section 5.1). -/
abbrev Bytes := List Byte

/-- Four bytes in wire order. `value` of a response is such a field: "not assembled into an integer at all"
(30_encoding.md R68, 20_memory.md R48). -/
structure Quad where
  b0 : Byte
  b1 : Byte
  b2 : Byte
  b3 : Byte
  deriving DecidableEq, Repr

/-- The four bytes of a field in wire order. -/
def Quad.toBytes (q : Quad) : Bytes := [q.b0, q.b1, q.b2, q.b3]

end Sys2Proof
end

