-- ==== Sys2Proof/Config.lean ====
section
/-! DEFINITION. What an implementation of ESPLINK fixes (the parameters of 00_scope.md R5) and the free values: constants
with no body, for what the spec leaves without a value. -/

namespace Sys2Proof

/-- `FRAMING_RESYNC` (00_scope.md R5): where a malformed escape leaves the stream, 40_framecodec.md R104 or R111. -/
inductive Resync where
  /-- The error is raised at the offending byte (R104), the value the spec takes. -/
  | immediate
  /-- The decoder first discards to the next delimiter (R111), the recorded alternative. -/
  | drain
  deriving DecidableEq, Repr

/-- The parameters of 00_scope.md R5 that a rule is stated over. The three durations and `LINE_POLARITY` are there because R5
lists them; no rule reads one (70_reset_and_hazards.md R251, 00_scope.md R5). -/
structure Params where
  /-- `DELIM` -/
  delim : Byte
  /-- `ESC` -/
  esc : Byte
  /-- `ESC_DELIM` -/
  escDelim : Byte
  /-- `ESC_ESC` -/
  escEsc : Byte
  /-- `OP_SYNC` -/
  opSync : Byte
  /-- `OP_READ_REG` -/
  opReadReg : Byte
  /-- `SYNC_MAGIC` -/
  syncMagic : Bytes
  /-- `N_STATUS` -/
  nStatus : Nat
  /-- `FRAMING_RESYNC` -/
  resync : Resync
  /-- `T_SETTLE`, in milliseconds -/
  tSettle : Nat
  /-- `T_RETX`, in milliseconds -/
  tRetx : Nat
  /-- `T_RXDEADLINE`, in milliseconds -/
  tRxDeadline : Nat
  /-- `LINE_POLARITY`: an opaque value, for which a number stands; "not used by any rule" (00_scope.md R5). Log 22, 31. -/
  linePolarity : Nat
  deriving DecidableEq, Repr

namespace Config

/-- Free value: the `n`-th line value left behind by a failed `SETLINES` (42_linecontroller.md R153). Log 7. -/
opaque freeBit : Nat → Bool

/-- Free value: the handle `Transport.open(path, bitRate)` returns at its `n`-th use (10_state.md R13). Log 8. -/
opaque openHandle : Bytes → Nat → Nat → Nat

/-- Free value: `LC.dtr` at reset (10_state.md R31). Log 5. -/
opaque resetLcDtr : Bool

/-- Free value: `LC.rts` at reset (10_state.md R31). Log 5. -/
opaque resetLcRts : Bool

/-- Free value: `PIN.dtr` at reset (10_state.md R31). Log 5. -/
opaque resetPinDtr : Bool

/-- Free value: `PIN.rts` at reset (10_state.md R31). Log 5. -/
opaque resetPinRts : Bool

/-- Free value: `PS.baud` at reset (10_state.md R31). Log 5. -/
opaque resetBaud : Nat

/-- Free value: `T_SETTLE` less one, so that `T_SETTLE` is an open duration greater than zero (00_scope.md R5). Log 25. -/
opaque settleLessOne : Nat

/-- Free value: `LINE_POLARITY`, which is open and has no default (00_scope.md R5). Log 31. -/
opaque linePolarity : Nat

end Config

end Sys2Proof
end

