-- ==== Sys2Proof/Syntax.lean ====
section
/-! DEFINITION. The rows of spec/opcode_table.json as one type, and the two values that stand in them and in results:
Command and Response (10_state.md R25). -/

namespace Sys2Proof

/-- A Command, "immutable once constructed" (10_state.md R25, 41_wiremessage.md R120). The bound on the payload is
`Command.wf` (R125). -/
structure Command where
  opcode : Byte
  checksum : Word
  payload : Bytes
  deriving DecidableEq, Repr

/-- A Response as PARSE returns it (10_state.md R25, 41_wiremessage.md R130). -/
structure Response where
  opcode : Byte
  value : Quad
  status : Bytes
  raw : Bytes
  deriving DecidableEq, Repr

/-- One constructor per row of spec/opcode_table.json: five link symbols, seven message forms, twelve operations. -/
inductive Instr where
  /-- LINK.DELIM: a frame boundary (30_encoding.md R61, 40_framecodec.md R100, R102). -/
  | linkDelim
  /-- LINK.ESCD: `ESC ESC_DELIM`, one payload byte `DELIM` (40_framecodec.md R103). -/
  | linkEscd
  /-- LINK.ESCE: `ESC ESC_ESC`, one payload byte `ESC` (40_framecodec.md R103). -/
  | linkEsce
  /-- LINK.ESCBAD: `ESC` and the offending byte `b` (40_framecodec.md R104). -/
  | linkEscbad (b : Byte)
  /-- LINK.LIT: the body byte `b` stands for itself (40_framecodec.md R102). -/
  | linkLit (b : Byte)
  /-- REQ.SYNC: a request whose opcode byte is `OP_SYNC` (30_encoding.md R66, R69). MKSYNC builds the one with
  checksum 0 and payload `SYNC_MAGIC`. -/
  | reqSync (checksum : Word) (payload : Bytes)
  /-- REQ.READ_REG: a request whose opcode byte is `OP_READ_REG` (30_encoding.md R66, R69). MKRDREG builds those with
  checksum 0 and payload `le32(address)`. -/
  | reqReadReg (checksum : Word) (payload : Bytes)
  /-- REQ.GENERIC: a request with any other opcode byte (30_encoding.md R66, R69). -/
  | reqGeneric (opcode : Byte) (checksum : Word) (payload : Bytes)
  /-- RESP.SYNC: a response whose opcode byte is `OP_SYNC` (30_encoding.md R67, R69). -/
  | respSync (len : Half) (value : Quad) (remainder status : Bytes)
  /-- RESP.READ_REG: a response whose opcode byte is `OP_READ_REG` (30_encoding.md R67, R69). -/
  | respReadReg (len : Half) (value : Quad) (remainder status : Bytes)
  /-- RESP.GENERIC: a response with any other opcode byte (30_encoding.md R67, R69). -/
  | respGeneric (opcode : Byte) (len : Half) (value : Quad) (remainder status : Bytes)
  /-- MSG.ILLEGAL: a received payload that is no response (30_encoding.md R72). -/
  | msgIllegal (f : Bytes)
  /-- ENC p (40_framecodec.md R91). -/
  | enc (p : Bytes)
  /-- DEC (40_framecodec.md R98). -/
  | dec
  /-- MKSYNC (41_wiremessage.md R121). -/
  | mksync
  /-- MKRDREG a (41_wiremessage.md R122). -/
  | mkrdreg (a : Word)
  /-- SER c (41_wiremessage.md R124). -/
  | ser (c : Command)
  /-- PARSE f (41_wiremessage.md R130). -/
  | parse (f : Bytes)
  /-- SETLINES d, r (42_linecontroller.md R152). -/
  | setlines (d r : Bool)
  /-- RSTSEQ (42_linecontroller.md R155). -/
  | rstseq
  /-- CONNECT path, baud (43_session.md R172). The path is opaque: any sequence of bytes. -/
  | connect (path : Bytes) (baud : Nat)
  /-- SYNC (43_session.md R175). -/
  | sync
  /-- EXEC c (43_session.md R180). -/
  | exec (c : Command)
  /-- READREG a (43_session.md R195). -/
  | readreg (a : Word)
  deriving DecidableEq, Repr

end Sys2Proof
end

