-- ==== Sys2Proof/WellFormed.lean ====
section
/-! DEFINITION. Which parameters are admissible (the constraint column of 00_scope.md R5), which Commands exist
(41_wiremessage.md R125), and which operands a row of the table admits. -/

namespace Sys2Proof

/-- The constraint column of 00_scope.md R5. -/
abbrev Params.WF (P : Params) : Prop :=
  P.delim ≠ P.esc ∧ P.delim ≠ P.escDelim ∧ P.delim ≠ P.escEsc ∧
  P.esc ≠ P.escDelim ∧ P.esc ≠ P.escEsc ∧ P.escDelim ≠ P.escEsc ∧
  P.opSync ≠ P.opReadReg ∧ P.syncMagic.length = 36 ∧ 1 ≤ P.nStatus ∧
  0 < P.tSettle ∧ 0 < P.tRetx ∧ 0 < P.tRxDeadline

/-- "A Command whose payload is longer than 65535 bytes is not a Command" (41_wiremessage.md R125). -/
abbrev Command.WF (c : Command) : Prop := c.payload.length ≤ 65535

/-- Which operands a row admits, under parameters `P`: the byte of LINK.ESCBAD is no escape code (30_encoding.md R71),
that of LINK.LIT no special byte (R61); a generic form has neither named opcode (R69); a request's payload fits its length
field (R66); a response has `N_STATUS` status bytes (R67); MSG.ILLEGAL is shorter than the minimum or does not begin with
`0x01` (R72); SER and EXEC take a Command. -/
def Instr.wf (P : Params) : Instr → Bool
  | .linkDelim => true
  | .linkEscd => true
  | .linkEsce => true
  | .linkEscbad b => b != P.escDelim && b != P.escEsc
  | .linkLit b => b != P.delim && b != P.esc
  | .reqSync _ pl => decide (pl.length ≤ 65535)
  | .reqReadReg _ pl => decide (pl.length ≤ 65535)
  | .reqGeneric op _ pl => op != P.opSync && op != P.opReadReg && decide (pl.length ≤ 65535)
  | .respSync _ _ _ st => st.length == P.nStatus
  | .respReadReg _ _ _ st => st.length == P.nStatus
  | .respGeneric op _ _ _ st => op != P.opSync && op != P.opReadReg && st.length == P.nStatus
  | .msgIllegal f => decide (f.length < 8 + P.nStatus) || f.head? != some 0x01#8
  | .enc _ => true
  | .dec => true
  | .mksync => true
  | .mkrdreg _ => true
  | .ser c => decide c.WF
  | .parse _ => true
  | .setlines _ _ => true
  | .rstseq => true
  | .connect _ _ => true
  | .sync => true
  | .exec c => decide c.WF
  | .readreg _ => true

end Sys2Proof
end

