-- ==== Sys2Proof/Decode.lean ====
section
/-! DEFINITION. The encodings of 30_encoding.md: byte order, link symbols, requests, received messages, read and written;
and the words of spec/opcode_table.json. Bytes on the link are read on three levels, and the level is no bit of the bytes:
it is where the machine reads them (the body of a frame, the frame a transmitter sends, the payload a receiver got).
Operations have no encoding (R83). -/

namespace Sys2Proof

/-! ### Fixed values and defaults (00_scope.md R5) -/

/-- `DIR_REQ`, the direction marker of a request. -/
def dirReq : Byte := 0x00#8

/-- `DIR_RESP`, the direction marker of a response. -/
def dirResp : Byte := 0x01#8

/-- `MIN_RESP_LEN = 8 + N_STATUS` (41_wiremessage.md R132). -/
def minRespLen (P : Params) : Nat := 8 + P.nStatus

/-- The default parameters the spec prints in 00_scope.md R5. PRESUMED: the spec marks the byte values
"from general knowledge, not in source" (log 4); `T_SETTLE` and `LINE_POLARITY` have no default (log 25, 31). -/
def defaultParams : Params where
  delim := 0xC0#8
  esc := 0xDB#8
  escDelim := 0xDC#8
  escEsc := 0xDD#8
  opSync := 0x08#8
  opReadReg := 0x0A#8
  syncMagic := [0x07#8, 0x07#8, 0x12#8, 0x20#8] ++ List.replicate 32 0x55#8
  nStatus := 2
  resync := .immediate
  tSettle := Config.settleLessOne + 1
  tRetx := 100
  tRxDeadline := 3000
  linePolarity := Config.linePolarity

/-! ### Byte order (00_scope.md section 5.1, 20_memory.md R48) -/

/-- `le16(v) = [v[7:0], v[15:8]]`. -/
def le16 (v : Half) : Bytes := [v.extractLsb' 0 8, v.extractLsb' 8 8]

/-- `le32(v) = [v[7:0], v[15:8], v[23:16], v[31:24]]`. -/
def le32 (v : Word) : Bytes :=
  [v.extractLsb' 0 8, v.extractLsb' 8 8, v.extractLsb' 16 8, v.extractLsb' 24 8]

/-- `unle16([a, b]) = a + 256*b`. -/
def unle16 (a b : Byte) : Half := b ++ a

/-- `unle32([a, b, c, d])`, first byte least significant. -/
def unle32 (a b c d : Byte) : Word := d ++ (c ++ (b ++ a))

/-! ### Why bytes are not read -/

/-- Why the decoder reads no instruction from the bytes it is given. -/
inductive DecodeError where
  /-- There is no byte. -/
  | noBytes
  /-- `ESC` stands last: its symbol is not complete yet (40_framecodec.md R101). -/
  | halfEscape
  /-- A request's first byte is not `DIR_REQ` (30_encoding.md R66). -/
  | notARequest
  /-- A request has fewer bytes than its header and length field say (30_encoding.md R66). -/
  | shortRequest
  /-- Operations have no numeric selector (30_encoding.md R83). -/
  | noSelector
  deriving DecidableEq, Repr

/-- Where bytes are read. -/
inductive Layer where
  /-- The body of a frame (30_encoding.md R61). -/
  | link
  /-- The message a transmitter sends (30_encoding.md R66). -/
  | request
  /-- The payload of a received frame (30_encoding.md R67). -/
  | received
  /-- An operation the caller requests (30_encoding.md R83). -/
  | operation
  deriving DecidableEq, Repr

/-- The level of each row of the table. -/
def layerOf : Instr → Layer
  | .linkDelim => .link
  | .linkEscd => .link
  | .linkEsce => .link
  | .linkEscbad _ => .link
  | .linkLit _ => .link
  | .reqSync _ _ => .request
  | .reqReadReg _ _ => .request
  | .reqGeneric _ _ _ => .request
  | .respSync _ _ _ _ => .received
  | .respReadReg _ _ _ _ => .received
  | .respGeneric _ _ _ _ _ => .received
  | .msgIllegal _ => .received
  | .enc _ => .operation
  | .dec => .operation
  | .mksync => .operation
  | .mkrdreg _ => .operation
  | .ser _ => .operation
  | .parse _ => .operation
  | .setlines _ _ => .operation
  | .rstseq => .operation
  | .connect _ _ => .operation
  | .sync => .operation
  | .exec _ => .operation
  | .readreg _ => .operation

/-! ### Reading -/

/-- The first link symbol of a frame body, and the bytes after it. The rows are tried in the table's order
(30_encoding.md R61, R71, R84). -/
def decodeLink (P : Params) : Bytes → Except DecodeError (Instr × Bytes)
  | [] => .error .noBytes
  | b :: r =>
    if b = P.delim then .ok (.linkDelim, r)
    else if b = P.esc then
      match r with
      | [] => .error .halfEscape
      | c :: r' =>
        if c = P.escDelim then .ok (.linkEscd, r')
        else if c = P.escEsc then .ok (.linkEsce, r')
        else .ok (.linkEscbad c, r')
    else .ok (.linkLit b, r)

/-- The row of a request, by its opcode byte, specific rows first (30_encoding.md R69, R84). -/
def requestForm (P : Params) (op : Byte) (checksum : Word) (payload : Bytes) : Instr :=
  if op = P.opSync then .reqSync checksum payload
  else if op = P.opReadReg then .reqReadReg checksum payload
  else .reqGeneric op checksum payload

/-- The request at the head of the bytes (30_encoding.md R66): the length field says how many payload bytes it has. -/
def decodeRequest (P : Params) : Bytes → Except DecodeError (Instr × Bytes)
  | [] => .error .noBytes
  | d :: r =>
    if d = dirReq then
      match r with
      | op :: l0 :: l1 :: c0 :: c1 :: c2 :: c3 :: r' =>
        let n := (unle16 l0 l1).toNat
        if r'.length < n then .error .shortRequest
        else .ok (requestForm P op (unle32 c0 c1 c2 c3) (r'.take n), r'.drop n)
      | _ => .error .shortRequest
    else .error .notARequest

/-- The row of a response, by its opcode byte, specific rows first (30_encoding.md R69, R84). -/
def responseForm (P : Params) (op : Byte) (len : Half) (value : Quad) (remainder status : Bytes) : Instr :=
  if op = P.opSync then .respSync len value remainder status
  else if op = P.opReadReg then .respReadReg len value remainder status
  else .respGeneric op len value remainder status

/-- The payload of a received frame (30_encoding.md R67, R72). Total: what is no response is MSG.ILLEGAL. The status is the
last `N_STATUS` bytes and the remainder what stands before it. -/
def decodeReceived (P : Params) (f : Bytes) : Instr :=
  if f.length < minRespLen P then .msgIllegal f
  else
    match f with
    | d :: op :: l0 :: l1 :: v0 :: v1 :: v2 :: v3 :: r =>
      if d = dirResp then
        responseForm P op (unle16 l0 l1) ⟨v0, v1, v2, v3⟩ (r.take (r.length - P.nStatus)) (r.drop (r.length - P.nStatus))
      else .msgIllegal f
    | _ => .msgIllegal f

/-- The decoder: the instruction at the head of the bytes, read on level `l`, and the bytes after it. The payload of a
received frame is read whole: "a receiver tells where a frame ends by the delimiter only" (30_encoding.md R64). -/
def decode (P : Params) (l : Layer) (bs : Bytes) : Except DecodeError (Instr × Bytes) :=
  match l with
  | .link => decodeLink P bs
  | .request => decodeRequest P bs
  | .received => .ok (decodeReceived P bs, [])
  | .operation => .error .noSelector

/-! ### Writing -/

/-- The bytes of a request (30_encoding.md R66). -/
def encodeRequest (op : Byte) (checksum : Word) (payload : Bytes) : Bytes :=
  dirReq :: op :: (le16 (BitVec.ofNat 16 payload.length) ++ le32 checksum ++ payload)

/-- The bytes of a response (30_encoding.md R67). -/
def encodeResponse (op : Byte) (len : Half) (value : Quad) (remainder status : Bytes) : Bytes :=
  dirResp :: op :: (le16 len ++ value.toBytes ++ remainder ++ status)

/-- The bytes of an instruction (30_encoding.md R61, R66, R67). An operation has none (R83). -/
def encode (P : Params) : Instr → Bytes
  | .linkDelim => [P.delim]
  | .linkEscd => [P.esc, P.escDelim]
  | .linkEsce => [P.esc, P.escEsc]
  | .linkEscbad b => [P.esc, b]
  | .linkLit b => [b]
  | .reqSync ck pl => encodeRequest P.opSync ck pl
  | .reqReadReg ck pl => encodeRequest P.opReadReg ck pl
  | .reqGeneric op ck pl => encodeRequest op ck pl
  | .respSync len v rem st => encodeResponse P.opSync len v rem st
  | .respReadReg len v rem st => encodeResponse P.opReadReg len v rem st
  | .respGeneric op len v rem st => encodeResponse op len v rem st
  | .msgIllegal f => f
  | .enc _ => []
  | .dec => []
  | .mksync => []
  | .mkrdreg _ => []
  | .ser _ => []
  | .parse _ => []
  | .setlines _ _ => []
  | .rstseq => []
  | .connect _ _ => []
  | .sync => []
  | .exec _ => []
  | .readreg _ => []

/-! ### The words of spec/opcode_table.json -/

/-- The first `nbits / 8` bytes of a word. DESIGN CHOICE: 30_encoding.md R84 prints a row's leading bytes as a hex string, first
wire byte leftmost, and does not make one number of them; here the first wire byte is the least significant, bits 7..0, and
each later byte counts on from it, so that `"match": "0008"` is the number `0x0800`. Log 29. -/
def wordBytes (nbits w : Nat) : Bytes :=
  (List.range (nbits / 8)).map fun k => BitVec.ofNat 8 (w >>> (8 * k))

/-- On which level the bytes of a table word are read. The table's rows of different levels overlap and a word carries no
level (log 15): one byte is a message form if it is a direction marker and a link symbol otherwise; two bytes that begin
with `ESC` are a link symbol; all else is a message, a request if it begins with `DIR_REQ`. -/
def wordLayer (P : Params) (bs : Bytes) : Layer :=
  match bs with
  | [] => .received
  | [b] => if b = dirReq then .request else if b = dirResp then .received else .link
  | b :: _ :: r =>
    if b = P.esc && r.isEmpty then .link
    else if b = dirReq then .request
    else .received

/-- A table word followed by zeros, up to the end of the instruction: the second byte of an escape, a request's header and
as many payload bytes as its length field says, a response's minimum length. -/
def padWord (P : Params) (bs : Bytes) : Bytes :=
  match wordLayer P bs with
  | .link => if bs = [P.esc] then bs ++ [0#8] else bs
  | .request =>
    let n := 8 + (unle16 (bs.getD 2 0#8) (bs.getD 3 0#8)).toNat
    bs ++ List.replicate (n - bs.length) 0#8
  | .received =>
    if bs.head? = some dirResp then bs ++ List.replicate (minRespLen P - bs.length) 0#8 else bs
  | .operation => bs

/-- The instruction the decoder reads from a table word, numbered as `wordBytes` says (log 29). -/
def decodeTableWord (nbits w : Nat) : Option Instr :=
  let bs := wordBytes nbits w
  match decode defaultParams (wordLayer defaultParams bs) (padWord defaultParams bs) with
  | .ok (i, []) => some i
  | .ok (_, _ :: _) => none
  | .error _ => none

end Sys2Proof
end

