-- ==== Sys2Proof/Machine/State.lean ====
section
/-! DEFINITION. The state of ESPLINK (10_state.md), the events of its environment (60_exceptions.md R212 to R216), the
reasons a step can stop, and the state after reset (10_state.md R30 to R33). -/

namespace Sys2Proof.Machine

/-- `PS.state` (10_state.md R12). -/
inductive SessionState where
  | disconnected
  | connected
  | synced
  /-- Entered on a fatal error and never left (60_exceptions.md R206). -/
  | failed
  deriving DecidableEq, Repr

/-- `DEC.st` (10_state.md R20). -/
inductive DecSt where
  /-- Looking for the opening delimiter, discarding bytes. -/
  | hunt
  /-- Inside a frame, not after an escape introducer. -/
  | data
  /-- Inside a frame, the previous byte was `ESC`. -/
  | escaped
  /-- Only with `FRAMING_RESYNC = drain`: discarding to the next delimiter after a malformed escape (40_framecodec.md R111).
  Log 23. -/
  | drain
  deriving DecidableEq, Repr

/-- `DEC.st` and `DEC.buf` of one DEC (10_state.md R20, R21). -/
structure Decoder where
  st : DecSt
  buf : Bytes
  deriving DecidableEq, Repr

/-- `SEQ.step` (10_state.md R23). -/
inductive SeqStep where
  /-- Not started. -/
  | s0
  /-- First line pattern applied, first settle wait running. -/
  | s1
  /-- Second line pattern applied, second settle wait running. -/
  | s2
  /-- Finished. -/
  | s3
  deriving DecidableEq, Repr

/-- The five error kinds (60_exceptions.md R200). -/
inductive ErrorKind where
  | transportError
  | framingError
  | timeoutError
  | protocolMismatchError
  | parseError
  deriving DecidableEq, Repr

/-- What an operation gives back on the port `op_res` (10_state.md R26, 60_exceptions.md R209). -/
inductive Result where
  /-- SETLINES, RSTSEQ, CONNECT, SYNC: ok. -/
  | ok
  /-- ENC, SER: a byte sequence. -/
  | bytes (bs : Bytes)
  /-- DEC: `Frame(p)`. -/
  | frame (p : Bytes)
  /-- MKSYNC, MKRDREG: a Command. -/
  | command (c : Command)
  /-- PARSE, EXEC: a Response. -/
  | response (x : Response)
  /-- READREG: four bytes. -/
  | value (v : Quad)
  /-- An error kind. -/
  | error (k : ErrorKind)
  deriving DecidableEq, Repr

/-- The operations that take more than the step of their request: the caller waits for one of them (43_session.md R170). -/
inductive Running where
  | dec
  | rstseq
  | sync
  | exec
  | readreg
  deriving DecidableEq, Repr

/-- `EX.cmd` and `EX.frame` of one EXEC (10_state.md R19). They do not exist outside it (R32). -/
structure Exchange where
  cmd : Command
  frame : Bytes
  deriving DecidableEq, Repr

/-- Where a transmitter stands in its loop (43_session.md R183). The test of `EX.done` and the write are two steps. -/
inductive TxPos where
  | test
  | write
  | wait
  deriving DecidableEq, Repr

/-- The transmitter of an EXEC that has returned, so that its own `EX.done` is true, and that has not stopped yet
(43_session.md R183, R191). Log 27. -/
structure LateTx where
  frame : Bytes
  pos : TxPos
  deriving DecidableEq, Repr

/-- What happens next: the environment acts, the caller requests, or an agent of ESPLINK gets its turn
(60_exceptions.md R212 to R216, 43_session.md R189). Log 1. -/
inductive Event where
  /-- The caller requests an operation, port `op_req` (10_state.md R26). -/
  | request (i : Instr)
  /-- Byte arrival (R213). -/
  | arrive (b : Byte)
  /-- The environment takes the head byte of TXQ (00_scope.md R6). -/
  | take
  /-- The `Transport.open` that waits for its answer fails (R215); without one, no effect (R212). Log 9. -/
  | failOpen
  /-- The `Transport.read` under the running DEC fails (R215); without one, no effect (R212). Log 9. -/
  | failRead
  /-- The `Transport.write` that waits for its answer fails (R215); without one, no effect (R212). Log 9. -/
  | failWrite
  /-- The `Transport.applyLineState` that waits for its answer fails (R215); without one, no effect (R212). Log 9. -/
  | failLine
  /-- The settle timer fires (R214). -/
  | settle
  /-- The retransmit timer of the running transmitter fires (R214). -/
  | retx
  /-- The receive deadline fires (R214). -/
  | deadline
  /-- The receiver, or a DEC requested directly, gets its turn. -/
  | rx
  /-- The transmitter of the running EXEC gets its turn. -/
  | tx
  /-- The `k`-th late transmitter gets its turn. -/
  | late (k : Nat)
  /-- The retransmit timer of the `k`-th late transmitter fires. -/
  | lateRetx (k : Nat)
  deriving DecidableEq, Repr, Inhabited

/-- The state of the machine. INVENTORY.md names the rule behind every field. -/
structure State where
  /-- The parameters of 00_scope.md R5: configuration, changed by no step. -/
  cfg : Params
  /-- `PS.state` -/
  psState : SessionState
  /-- `PS.handle`: `none`, or `open(h)`. -/
  handle : Option Nat
  /-- `PS.baud` -/
  baud : Nat
  /-- `LC.dtr` -/
  lcDtr : Bool
  /-- `LC.rts` -/
  lcRts : Bool
  /-- `PIN.dtr` -/
  pinDtr : Bool
  /-- `PIN.rts` -/
  pinRts : Bool
  /-- `EX.cmd`, `EX.frame`; `none` while no EXEC runs. -/
  ex : Option Exchange
  /-- `EX.done` of the last EXEC, which stays true when it has returned (43_session.md R191); `none` before the first EXEC.
  Log 18. -/
  exDone : Option Bool
  /-- `DEC.st`, `DEC.buf`; `none` while no DEC runs. -/
  dec : Option Decoder
  /-- `SEQ.step`; `none` while no RSTSEQ runs. -/
  seq : Option SeqStep
  /-- The operation the caller waits for. -/
  op : Option Running
  /-- The payload the receiver of an EXEC got from DEC and has not parsed yet. -/
  rxMsg : Option Bytes
  /-- The transmitter of the running EXEC. -/
  tx : Option TxPos
  /-- The late transmitters, oldest first. -/
  late : List LateTx
  /-- `RXQ` -/
  rxq : Bytes
  /-- `TXQ` -/
  txq : Bytes
  /-- The value last given on `op_res`; `none` while the first result is still to come.
  Log 18. -/
  res : Option Result
  /-- What happens next, oldest first. -/
  events : List Event
  /-- How many free events have been used. -/
  eventTick : Nat
  /-- How many free line values and handles have been used. -/
  freeTick : Nat
  deriving DecidableEq, Repr

/-- Why the machine stops with a fault. The spec has no such stop: a TransportError is a next state (log 12). These stand for
states that no run from reset reaches (log 21), and Obligations.InvariantRulesOutFaults says so. -/
inductive Fault where
  /-- Raised by a transport call (RxNext, TxWrite, ApplyLines) while `PS.handle` is `none`, where "none of them is possible"
  (10_state.md R13). Safe: the model stops. -/
  | noTransport
  /-- Raised by an agent of an EXEC when there is no `EX.cmd`, `EX.frame` or `EX.done` (10_state.md R32). Safe: the model
  stops. -/
  | noExchange
  /-- Raised by a decoder or sequencer that runs for no operation (10_state.md R20, R23). Safe: the model stops. -/
  | noOperation
  deriving DecidableEq, Repr

/-- Why the machine gives no meaning to what is asked of it. -/
inductive Refusal where
  /-- Raised by `exec` for a row of the table without a meaning. No arm does. Safe. -/
  | notModelled (mnemonic : String)
  /-- Raised by every operation in `Failed` (43_session.md R171, 60_exceptions.md R206). Safe: the spec refuses it. -/
  | sessionFailed
  /-- Raised by an operation requested while another runs (43_session.md R170, R192). Safe: the spec refuses it. -/
  | busy
  /-- Raised by an operation outside the session state that 43_session.md R171 gives it. Safe: the spec refuses it. -/
  | wrongState
  /-- Raised by SER, EXEC and the request forms for a payload over 65535 bytes (41_wiremessage.md R125). Safe: the spec refuses it. -/
  | notACommand
  /-- Raised by a step in which the caller requests a link symbol or a message form: the port `op_req` carries "one of the
  twelve operations" (10_state.md R26). Safe. -/
  | notAnOperation
  deriving DecidableEq, Repr

/-- The three outcomes of a step of this machine. -/
abbrev Out := Host.Outcome State Fault Refusal

/-- ESPLINK right after reset (10_state.md R30 to R33, 70_reset_and_hazards.md R230): `Disconnected`, no handle; the lines
and the bit rate unspecified (log 5); nothing that belongs to an operation exists; the streams empty (log 6). -/
def State.reset : State where
  cfg := defaultParams
  psState := .disconnected
  handle := none
  baud := Config.resetBaud
  lcDtr := Config.resetLcDtr
  lcRts := Config.resetLcRts
  pinDtr := Config.resetPinDtr
  pinRts := Config.resetPinRts
  ex := none
  exDone := none
  dec := none
  seq := none
  op := none
  rxMsg := none
  tx := none
  late := []
  rxq := []
  txq := []
  res := none
  events := []
  eventTick := 0
  freeTick := 0

/-- Free value: the `n`-th event that happens when the list of events is at its end: "the environment is an oracle"
(20_memory.md R47). Log 2. -/
opaque envEvent : Nat → Event

end Sys2Proof.Machine
end

