-- ==== Sys2Proof/Machine/FrameCodec.lean ====
section
/-! DEFINITION. Unit FC as functions (40_framecodec.md): the encoder R91 and its byte-serial form R92, the decoder's step on
one byte R99 to R104 and R111, and the decoder over a list of bytes R107. -/

namespace Sys2Proof.Machine

/-! ### ENC -/

/-- `enc_byte(b)` (R91). -/
def encByte (P : Params) (b : Byte) : Bytes :=
  if b = P.delim then [P.esc, P.escDelim]
  else if b = P.esc then [P.esc, P.escEsc]
  else [b]

/-- The body of a frame: one symbol per payload byte (30_encoding.md R61). -/
def encBody (P : Params) : Bytes → Bytes
  | [] => []
  | b :: p => encByte P b ++ encBody P p

/-- `ENC(p)` (R91). -/
def encFrame (P : Params) (p : Bytes) : Bytes := P.delim :: (encBody P p ++ [P.delim])

/-- The special bytes of a payload: those equal to `DELIM` or `ESC` (00_scope.md section 7). -/
def specials (P : Params) (p : Bytes) : Nat := p.countP fun b => b = P.delim ∨ b = P.esc

/-- The byte-serial encoder (R92): what is still to be emitted. -/
inductive Emitter where
  /-- The opening delimiter is next. -/
  | opening (p : Bytes)
  /-- The payload `p` is still to come. -/
  | body (p : Bytes)
  /-- The second byte `b` of an escape pair is pending, then the payload `p`. -/
  | pending (b : Byte) (p : Bytes)
  /-- Everything has been emitted. -/
  | finished
  deriving DecidableEq, Repr

/-- One step of the byte-serial encoder: the byte emitted and what remains (R92). -/
def emit (P : Params) : Emitter → Option (Byte × Emitter)
  | .opening p => some (P.delim, .body p)
  | .body [] => some (P.delim, .finished)
  | .body (b :: p) =>
    if b = P.delim then some (P.esc, .pending P.escDelim p)
    else if b = P.esc then some (P.esc, .pending P.escEsc p)
    else some (b, .body p)
  | .pending b p => some (b, .body p)
  | .finished => none

/-- The bytes the byte-serial encoder emits in `n` steps. -/
def emitAll (P : Params) : Nat → Emitter → Bytes
  | 0, _ => []
  | n + 1, e =>
    match emit P e with
    | some (b, e') => b :: emitAll P n e'
    | none => []

/-! ### DEC -/

/-- The state every DEC starts in (R99). -/
def decStart : Decoder := ⟨.hunt, []⟩

/-- What one byte does to a DEC. -/
inductive DecStep where
  /-- DEC goes on. -/
  | more (d : Decoder)
  /-- DEC returns `Frame(p)`. -/
  | frame (p : Bytes)
  /-- DEC raises FramingError. -/
  | framing
  deriving DecidableEq, Repr

/-- The step of a DEC on byte `b`: R100 in `HUNT`, R101 and R102 in `DATA`, R103 and R104 (or R111) in `ESCAPED`, and R111's
discarding. -/
def decByte (P : Params) (d : Decoder) (b : Byte) : DecStep :=
  match d.st with
  | .hunt => if b = P.delim then .more { d with st := .data } else .more d
  | .data =>
    if b = P.delim then .frame d.buf
    else if b = P.esc then .more { d with st := .escaped }
    else .more { d with buf := d.buf ++ [b] }
  | .escaped =>
    if b = P.escDelim then .more ⟨.data, d.buf ++ [P.delim]⟩
    else if b = P.escEsc then .more ⟨.data, d.buf ++ [P.esc]⟩
    else
      match P.resync with
      | .immediate => .framing
      | .drain => if b = P.delim then .framing else .more ⟨.drain, []⟩
  | .drain => if b = P.delim then .framing else .more d

/-- The outcome of a DEC whose deadline fires after its last byte. -/
inductive DecResult where
  | frame (p : Bytes)
  | framingError
  | timeoutError
  deriving DecidableEq, Repr

/-- The machine of R99 to R105 run over the bytes that arrive before the deadline: the result, and the bytes not consumed
(20_memory.md R46). -/
def decRun (P : Params) (d : Decoder) : Bytes → DecResult × Bytes
  | [] => (.timeoutError, [])
  | b :: r =>
    match decByte P d b with
    | .more d' => decRun P d' r
    | .frame p => (.frame p, r)
    | .framing => (.framingError, r)

mutual
/-- `data(buf, s)` of R107. -/
def listData (P : Params) (buf : Bytes) : Bytes → DecResult × Bytes
  | [] => (.timeoutError, [])
  | b :: r =>
    if b = P.delim then (.frame buf, r)
    else if b = P.esc then listEsc P buf r
    else listData P (buf ++ [b]) r

/-- `esc(buf, s)` of R107. -/
def listEsc (P : Params) (buf : Bytes) : Bytes → DecResult × Bytes
  | [] => (.timeoutError, [])
  | b :: r =>
    if b = P.escDelim then listData P (buf ++ [P.delim]) r
    else if b = P.escEsc then listData P (buf ++ [P.esc]) r
    else (.framingError, r)
end

/-- `hunt(s)` of R107. -/
def listHunt (P : Params) : Bytes → DecResult × Bytes
  | [] => (.timeoutError, [])
  | b :: r => if b = P.delim then listData P [] r else listHunt P r

/-- `dec(s)` of R107: DEC as a function of the bytes that arrive before the deadline, with `FRAMING_RESYNC = immediate`. -/
def listDec (P : Params) (s : Bytes) : DecResult × Bytes := listHunt P s

end Sys2Proof.Machine
end

