-- ==== Sys2Proof/Machine/Operands.lean ====
section
/-! DEFINITION. The operands of the operations: Commands, Responses and their wire form, unit WM as functions
(41_wiremessage.md), and the numbers of the error kinds (60_exceptions.md R200). -/

namespace Sys2Proof.Machine

/-- The Command of MKSYNC (R121). -/
def syncCommand (P : Params) : Command := ⟨P.opSync, 0#32, P.syncMagic⟩

/-- The Command of `MKRDREG a` (R122). -/
def readRegCommand (P : Params) (a : Word) : Command := ⟨P.opReadReg, 0#32, le32 a⟩

/-- `SER(c)` (R124). -/
def serialise (c : Command) : Bytes :=
  [dirReq, c.opcode] ++ le16 (BitVec.ofNat 16 c.payload.length) ++ le32 c.checksum ++ c.payload

/-- The bytes of a frame that a Command is sent in: `ENC(SER(c))` (43_session.md R181). -/
def commandFrame (P : Params) (c : Command) : Bytes := encFrame P (serialise c)

/-- `EX.cmd <- c; EX.frame <- ENC(SER(c))` (43_session.md R181). -/
def newExchange (P : Params) (c : Command) : Exchange := ⟨c, commandFrame P c⟩

/-- `PARSE f` (R130): the minimum length first (R132), then the direction marker (R131). -/
def parseResponse (P : Params) (f : Bytes) : Except ErrorKind Response :=
  if f.length < minRespLen P then .error .parseError
  else
    match f with
    | d :: op :: _ :: _ :: v0 :: v1 :: v2 :: v3 :: _ =>
      if d = dirResp then .ok ⟨op, ⟨v0, v1, v2, v3⟩, f.drop (f.length - P.nStatus), f⟩
      else .error .parseError
    | _ => .error .parseError

/-- What the receiver makes of a payload: `PARSE`, then the comparison of opcodes (43_session.md R184 to R187,
60_exceptions.md R220). -/
def verdict (P : Params) (c : Command) (f : Bytes) : Except ErrorKind Response :=
  match parseResponse P f with
  | .error k => .error k
  | .ok x => if x.opcode = c.opcode then .ok x else .error .protocolMismatchError

/-- The result of a PARSE requested directly (60_exceptions.md R209). -/
def parseResult (P : Params) (f : Bytes) : Result :=
  match parseResponse P f with
  | .ok x => .response x
  | .error k => .error k

/-- The Command whose wire form a request has, for a request form; another form has none. -/
def commandOf (P : Params) : Instr → Option Command
  | .reqSync ck pl => some ⟨P.opSync, ck, pl⟩
  | .reqReadReg ck pl => some ⟨P.opReadReg, ck, pl⟩
  | .reqGeneric op ck pl => some ⟨op, ck, pl⟩
  | _ => none

/-- The code of an error kind (60_exceptions.md R200). -/
def errorCode : ErrorKind → Nat
  | .transportError => 1
  | .framingError => 2
  | .timeoutError => 3
  | .protocolMismatchError => 4
  | .parseError => 5

/-- Whether an error kind is fatal (60_exceptions.md R200, R210): only TransportError escalates. -/
def isFatal (k : ErrorKind) : Bool := k == .transportError

end Sys2Proof.Machine
end

