-- ==== Sys2Proof/Machine/Flags.lean ====
section
/-! DEFINITION. The one flag of ESPLINK, the completion signal `EX.done` (10_state.md R18): false when an EXEC starts, set
once by the receiver, read by the transmitter. There are no condition codes. -/

namespace Sys2Proof.Machine

/-- `EX.done <- false` (43_session.md R181). -/
def State.clearDone (s : State) : State := { s with exDone := some false }

/-- `EX.done <- true`, by the receiver (43_session.md R187). -/
def State.setDone (s : State) : State := { s with exDone := some true }

/-- What the transmitter of the running EXEC sees at its test: whether it stops (43_session.md R183). -/
def State.seesDone (s : State) : Option Bool := s.exDone

end Sys2Proof.Machine
end

