-- ==== Sys2Proof/Machine/Ops.lean ====
section
/-! DEFINITION. The operations that the meanings share: the next event and the answer to a transport call, the return to the
caller, the fatal entry, the preconditions, the line outputs and the reset sequencer, the transmit stream, the decoder's
returns, the start of an exchange and the receiver. -/

namespace Sys2Proof.Machine

/-! ### The next event, and the answer to a transport call (60_exceptions.md R212, R215) -/

/-- The next event: the head of the list, or a free one when the list is at its end. Log 1, 2. -/
def State.upcoming (s : State) : Event :=
  match s.events with
  | e :: _ => e
  | [] => envEvent s.eventTick

/-- The state when the next event has been taken. -/
def State.taken (s : State) : State :=
  { s with
    events := s.events.tail
    eventTick := if s.events.isEmpty then s.eventTick + 1 else s.eventTick }

/-- The environment's answer to a transport call that an agent has just made and waits for: if the next event is that call's
failure `f`, it is delivered to the call, which fails, and otherwise the call succeeds. There is no pending failure. Log 9. -/
def transportCall (f : Event) (s : State) : Except State State :=
  if s.upcoming = f then .error s.taken else .ok s

/-! ### Returning, and failing (60_exceptions.md R206, R209) -/

/-- The running operation is over and gives `r` to the caller (43_session.md R194). -/
def State.finish (r : Result) (s : State) : State := { s with op := none, res := some r }

/-- The session is aborted: `PS.state <- Failed` and no agent takes another step (60_exceptions.md R206). `EX.done` is not
written and the lines keep their values; what belongs to an operation is gone with it (10_state.md R32). Log 10. -/
def State.abort (s : State) : State :=
  { s with
    psState := .failed, op := none, ex := none, dec := none, seq := none, rxMsg := none, tx := none, late := [] }

/-- TAKING A TRANSPORT ERROR inside an operation: the session is aborted and the operation reports TransportError to the
caller (60_exceptions.md R206). -/
def State.transportError (s : State) : State := { s.abort with res := some (.error .transportError) }

/-- TAKING A TRANSPORT ERROR in a transmitter: the operation that runs reports it; if none runs the session is aborted and
the result already returned stays (43_session.md R188, 60_exceptions.md R221). Log 11. -/
def State.agentError (s : State) : State := if s.op.isSome then s.transportError else s.abort

/-! ### Preconditions (43_session.md R170, R171, R192) -/

/-- An operation may be requested: the session has not failed and no other operation runs. Log 26 on the order. -/
def whenIdle (s : State) (k : State → Out) : Out :=
  if s.psState = .failed then .refused .sessionFailed
  else if s.op.isSome then .refused .busy
  else k s

/-- Nothing is asked of a failed session (60_exceptions.md R206). -/
def whenAlive (s : State) (k : State → Out) : Out :=
  if s.psState = .failed then .refused .sessionFailed else k s

/-- An operation requires the session state `p`. -/
def whenState (p : SessionState) (s : State) (k : State → Out) : Out :=
  if s.psState = p then k s else .refused .wrongState

/-- An operation requires `Connected` or `Synced`. -/
def whenOpen (s : State) (k : State → Out) : Out :=
  if s.psState = .connected ∨ s.psState = .synced then k s else .refused .wrongState

/-- Every transport call goes through `PS.handle` (10_state.md R13). -/
def whenHandle (s : State) (k : State → Out) : Out :=
  if s.handle.isSome then k s else .fault .noTransport

/-- An operand must be a Command (41_wiremessage.md R125). -/
def whenCommand (c : Command) (s : State) (k : State → Out) : Out :=
  if c.WF then k s else .refused .notACommand

/-! ### Lines (42_linecontroller.md) -/

/-- The four line values are unspecified after a failed ApplyLines: free values (R153). Log 7. -/
def State.freeLines (s : State) : State :=
  { s with
    lcDtr := Config.freeBit s.freeTick
    lcRts := Config.freeBit (s.freeTick + 1)
    pinDtr := Config.freeBit (s.freeTick + 2)
    pinRts := Config.freeBit (s.freeTick + 3)
    freeTick := s.freeTick + 4 }

/-- `ApplyLines(d, r)`: both outputs in one step, or failure (R151). -/
def applyLines (d r : Bool) (s : State) : Except State State :=
  match transportCall .failLine s with
  | .error s' => .error s'.freeLines
  | .ok s' => .ok { s' with pinDtr := d, pinRts := r }

/-- `SETLINES d, r`: ApplyLines, then both recorded values together (R152). -/
def setLines (d r : Bool) (s : State) : Except State State :=
  match applyLines d r s with
  | .error s' => .error s'
  | .ok s' => .ok { s' with lcDtr := d, lcRts := r }

/-- `SEQ.step <- S0`, then step 1 of RSTSEQ (R155, R156), for the operation `o`. Log 17. -/
def startReset (o : Running) (s : State) : Out :=
  match setLines false true { s with op := some o, res := none, seq := some .s0 } with
  | .error s' => .next s'.transportError
  | .ok s' => .next { s' with seq := some .s1 }

/-! ### The transmit stream (20_memory.md R41, R42) -/

/-- `TxWrite(f)`: the whole of `f` is appended to TXQ, or a transmitter's transport error. -/
def txWrite (f : Bytes) (s : State) : Out :=
  whenAlive s fun s => whenHandle s fun s =>
    match transportCall .failWrite s with
    | .error s' => .next s'.agentError
    | .ok s' => .next { s' with txq := s'.txq ++ f }

/-! ### The exchange (43_session.md R181 to R191) -/

/-- The start of an EXEC: `EX.*` is set, the receiver's first DEC starts (R184, 40_framecodec.md R99) and the transmitter
stands before its first test (R183). RXQ is not flushed. -/
def State.startExchange (c : Command) (s : State) : State :=
  { s.clearDone with
    ex := some (newExchange s.cfg c)
    dec := some decStart
    rxMsg := none
    tx := some .test
    res := none }

/-- Whether an EXEC runs, alone or inside SYNC or READREG. -/
def exchanging : Option Running → Bool
  | some .sync => true
  | some .exec => true
  | some .readreg => true
  | some .dec => false
  | some .rstseq => false
  | none => false

/-- The receiver goes on: the next DEC starts at once (R185, 60_exceptions.md R207). -/
def State.nextAttempt (s : State) : State := { s with dec := some decStart, rxMsg := none }

/-- The transmitter that EXEC leaves behind when it returns (R183, R191). -/
def lateOf (e : Exchange) : Option TxPos → List LateTx
  | some p => [⟨e.frame, p⟩]
  | none => []

/-- The receiver's match: `EX.done <- true`; EXEC is over, and `EX.cmd` and `EX.frame` are gone with it (10_state.md R32); the
transmitter has still to see `EX.done` (R187, R191) and keeps the frame it may still owe. -/
def State.endExchange (e : Exchange) (s : State) : State :=
  { s.setDone with
    ex := none
    dec := none
    rxMsg := none
    tx := none
    late := s.late ++ lateOf e s.tx }

/-- What the matched Response ends: SYNC (R175), READREG (R195) or EXEC (R187). -/
def State.deliver (x : Response) (s : State) : State :=
  match s.op with
  | some .sync => { s with psState := .synced }.finish .ok
  | some .readreg => s.finish (.value x.value)
  | _ => s.finish (.response x)

/-- The receiver takes a payload: PARSE, compare, then go on or return (R184 to R187). DESIGN CHOICE: on a match, `EX.done <-
true`, the return of EXEC and the return of the SYNC or READREG around it (in SYNC with `PS.state <- Synced`, R175) are ONE
step, so no other agent's step falls between them (log 30). Outside an EXEC it is a PARSE requested directly (log 14). -/
def receive (f : Bytes) (s : State) : Out :=
  if exchanging s.op then
    match s.ex with
    | none => .fault .noExchange
    | some e =>
      match verdict s.cfg e.cmd f with
      | .error _ => .next s.nextAttempt
      | .ok x => .next ((s.endExchange e).deliver x)
  else whenIdle s fun s => .next (s.finish (parseResult s.cfg f))

/-! ### The decoder's returns (40_framecodec.md R98) -/

/-- DEC returns `Frame(p)`: to the caller, or to the receiver of an EXEC (43_session.md R184). -/
def decFrame (p : Bytes) (s : State) : Out :=
  if exchanging s.op then .next { s with dec := none, rxMsg := some p }
  else if s.op = some .dec then .next ({ s with dec := none }.finish (.frame p))
  else .fault .noOperation

/-- DEC raises FramingError or TimeoutError: to the caller, or absorbed by the receiver (43_session.md R185). -/
def decError (k : ErrorKind) (s : State) : Out :=
  if exchanging s.op then .next s.nextAttempt
  else if s.op = some .dec then .next ({ s with dec := none }.finish (.error k))
  else .fault .noOperation

/-- The running DEC takes the byte `b` (40_framecodec.md R100 to R104). Where no DEC runs the byte waits in RXQ
(60_exceptions.md R213). Log 13. -/
def feed (b : Byte) (s : State) : Out :=
  match s.dec with
  | none => .next { s with rxq := s.rxq ++ [b] }
  | some d =>
    match decByte s.cfg d b with
    | .more d' => .next { s with dec := some d' }
    | .frame p => decFrame p s
    | .framing => decError .framingError s

/-- The first outcome's next state, if it has one, taken on. -/
def andThen (o : Out) (k : State → Out) : Out :=
  match o with
  | .next s => k s
  | .fault r => .fault r
  | .refused r => .refused r

/-- The running DEC takes an escape symbol whose second byte is `b`. In `ESCAPED` its first byte has been taken already.
Log 13. -/
def feedEscape (b : Byte) (s : State) : Out :=
  if s.dec.map Decoder.st = some .escaped then feed b s
  else andThen (feed s.cfg.esc s) (feed b)

/-! ### The reset sequencer's waits (42_linecontroller.md R157 to R160) -/

/-- RSTSEQ returns ok: to the caller, or to SYNC, which starts its EXEC (43_session.md R175). `SEQ.step` is gone with it
(10_state.md R23, R32). Log 17. -/
def afterReset (s : State) : Out :=
  match s.op with
  | some .rstseq => .next ({ s with seq := none }.finish .ok)
  | some .sync => .next ({ s with seq := none }.startExchange (syncCommand s.cfg))
  | _ => .fault .noOperation

/-- The settle timer fires: the sequencer's next step, R158 in `S1`, and in `S2` R160: `SEQ.step <- S3; return ok`. Where no wait
runs it has no effect (60_exceptions.md R212). -/
def settled (s : State) : Out :=
  match s.seq with
  | some .s1 => whenHandle s fun s =>
      match setLines true false s with
      | .error s' => .next s'.transportError
      | .ok s' => .next { s' with seq := some .s2 }
  | some .s2 => afterReset { s with seq := some .s3 }
  | some .s0 => .next s
  | some .s3 => .next s
  | none => .next s

end Sys2Proof.Machine
end

