-- ==== Sys2Proof/Machine/Codec.lean ====
section
/-! DEFINITION. The meanings of FC's operations ENC and DEC (40_framecodec.md) and of WM's operations MKSYNC, MKRDREG, SER
and PARSE (41_wiremessage.md). -/

namespace Sys2Proof.Machine

/-- ENC p: pure and total (40_framecodec.md R91). It does not write to the transport. -/
def execEnc (p : Bytes) (s : State) : Out :=
  whenIdle s fun s => .next (s.finish (.bytes (encFrame s.cfg p)))

/-- DEC requested directly: it starts in `HUNT` with an empty buffer (40_framecodec.md R98, R99; 43_session.md R171). The
bytes it takes are later steps. -/
def execDec (s : State) : Out :=
  whenIdle s fun s => whenOpen s fun s => whenHandle s fun s =>
    .next { s with op := some .dec, dec := some decStart, res := none }

/-- MKSYNC (41_wiremessage.md R121). -/
def execMksync (s : State) : Out :=
  whenIdle s fun s => .next (s.finish (.command (syncCommand s.cfg)))

/-- MKRDREG a (41_wiremessage.md R122): every 32-bit value is accepted. -/
def execMkrdreg (a : Word) (s : State) : Out :=
  whenIdle s fun s => .next (s.finish (.command (readRegCommand s.cfg a)))

/-- SER c (41_wiremessage.md R124, R125). -/
def execSer (c : Command) (s : State) : Out :=
  whenIdle s fun s => whenCommand c s fun s => .next (s.finish (.bytes (serialise c)))

/-- PARSE f (41_wiremessage.md R130, 60_exceptions.md R209): its error is its result. -/
def execParse (f : Bytes) (s : State) : Out :=
  whenIdle s fun s => .next (s.finish (parseResult s.cfg f))

end Sys2Proof.Machine
end

