-- ==== Sys2Proof/Machine/Lines.lean ====
section
/-! DEFINITION. The meanings of LC's operations SETLINES and RSTSEQ (42_linecontroller.md). -/

namespace Sys2Proof.Machine

/-- SETLINES d, r: both lines in one step, or TransportError (R152, R153; 43_session.md R171). -/
def execSetlines (d r : Bool) (s : State) : Out :=
  whenIdle s fun s => whenOpen s fun s => whenHandle s fun s =>
    match setLines d r s with
    | .error s' => .next s'.transportError
    | .ok s' => .next (s'.finish .ok)

/-- RSTSEQ: its first line pattern now (R155, R156; 43_session.md R171); the two waits and the second pattern are steps at
the settle event. -/
def execRstseq (s : State) : Out :=
  whenIdle s fun s => whenOpen s fun s => whenHandle s (startReset .rstseq)

end Sys2Proof.Machine
end

