-- ==== Sys2Proof/Machine/Link.lean ====
section
/-! DEFINITION. The meanings of the link symbols: what the running DEC does when it takes the symbol
(40_framecodec.md R100 to R104, R111). Log 13. -/

namespace Sys2Proof.Machine

/-- LINK.DELIM: opens a frame in `HUNT` (R100), closes it in `DATA` (R102), is a malformed escape in `ESCAPED` (R104). -/
def execLinkDelim (s : State) : Out := feed s.cfg.delim s

/-- LINK.ESCD: one payload byte `DELIM` (R101, R103). -/
def execLinkEscd (s : State) : Out := feedEscape s.cfg.escDelim s

/-- LINK.ESCE: one payload byte `ESC` (R101, R103). -/
def execLinkEsce (s : State) : Out := feedEscape s.cfg.escEsc s

/-- LINK.ESCBAD: FramingError (R101, R104), at once or after the next delimiter (R111). -/
def execLinkEscbad (b : Byte) (s : State) : Out := feedEscape b s

/-- LINK.LIT: one payload byte `b` (R102). -/
def execLinkLit (b : Byte) (s : State) : Out := feed b s

end Sys2Proof.Machine
end

