-- ==== Sys2Proof/Machine/Message.lean ====
section
/-! DEFINITION. The meanings of the message forms. A request is what a transmitter writes: its bytes, framed, enter TXQ in
one TxWrite (43_session.md R183, 20_memory.md R42). A received form is what the receiver does with the payload
(43_session.md R184 to R187), or a PARSE outside an EXEC. Log 14. -/

namespace Sys2Proof.Machine

/-- A transmitter sends the Command `c`: `TxWrite(ENC(SER(c)))`. -/
def transmit (c : Command) (s : State) : Out :=
  whenCommand c s (txWrite (commandFrame s.cfg c))

/-- REQ.SYNC (R183, 41_wiremessage.md R121, R124). -/
def execReqSync (checksum : Word) (payload : Bytes) (s : State) : Out :=
  transmit ⟨s.cfg.opSync, checksum, payload⟩ s

/-- REQ.READ_REG (R183, 41_wiremessage.md R122, R124). -/
def execReqReadReg (checksum : Word) (payload : Bytes) (s : State) : Out :=
  transmit ⟨s.cfg.opReadReg, checksum, payload⟩ s

/-- REQ.GENERIC (R183, 41_wiremessage.md R123, R124). -/
def execReqGeneric (opcode : Byte) (checksum : Word) (payload : Bytes) (s : State) : Out :=
  transmit ⟨opcode, checksum, payload⟩ s

/-- RESP.SYNC (41_wiremessage.md R130, 43_session.md R176, R186, R187). -/
def execRespSync (len : Half) (value : Quad) (remainder status : Bytes) (s : State) : Out :=
  receive (encodeResponse s.cfg.opSync len value remainder status) s

/-- RESP.READ_REG (41_wiremessage.md R130, 43_session.md R186, R187, R195). -/
def execRespReadReg (len : Half) (value : Quad) (remainder status : Bytes) (s : State) : Out :=
  receive (encodeResponse s.cfg.opReadReg len value remainder status) s

/-- RESP.GENERIC (41_wiremessage.md R130, 43_session.md R186, R187). -/
def execRespGeneric (opcode : Byte) (len : Half) (value : Quad) (remainder status : Bytes) (s : State) : Out :=
  receive (encodeResponse opcode len value remainder status) s

/-- MSG.ILLEGAL: ParseError (41_wiremessage.md R131, R132), absorbed by the receiver of an EXEC (43_session.md R185). -/
def execMsgIllegal (f : Bytes) (s : State) : Out := receive f s

end Sys2Proof.Machine
end

