-- ==== Sys2Proof/Machine/Session.lean ====
section
/-! DEFINITION. The meanings of PS's operations CONNECT, SYNC, EXEC and READREG (43_session.md). CONNECT is one step. The
others start here and go on at the turns of their agents and the events they wait for. -/

namespace Sys2Proof.Machine

/-- `Transport.open(path, baud)`: a handle, or failure (60_exceptions.md R224). Log 8. -/
def openTransport (path : Bytes) (baud : Nat) (s : State) : Except State State :=
  match transportCall .failOpen s with
  | .error s' => .error s'
  | .ok s' => .ok { s' with handle := some (Config.openHandle path baud s'.freeTick), freeTick := s'.freeTick + 1 }

/-- CONNECT path, baud (R172, R173). -/
def execConnect (path : Bytes) (baud : Nat) (s : State) : Out :=
  whenIdle s fun s => whenState .disconnected s fun s =>
    match openTransport path baud s with
    | .error s' => .next s'.transportError
    | .ok s' => .next ({ s' with baud := baud, psState := .connected }.finish .ok)

/-- SYNC: RSTSEQ, then EXEC MKSYNC, then `PS.state <- Synced` (R175). -/
def execSync (s : State) : Out :=
  whenIdle s fun s => whenState .connected s fun s => whenHandle s (startReset .sync)

/-- EXEC c (R180, R181): both agents become runnable. -/
def execExec (c : Command) (s : State) : Out :=
  whenIdle s fun s => whenState .synced s fun s => whenCommand c s fun s => whenHandle s fun s =>
    .next ({ s with op := some .exec }.startExchange c)

/-- READREG a (R195): `EXEC (MKRDREG a)`, of which the value is given back. -/
def execReadreg (a : Word) (s : State) : Out :=
  whenIdle s fun s => whenState .synced s fun s => whenHandle s fun s =>
    .next ({ s with op := some .readreg }.startExchange (readRegCommand s.cfg a))

end Sys2Proof.Machine
end

