-- ==== Sys2Proof/Machine/Dispatch.lean ====
section
/-! DEFINITION. The meaning of every row of spec/opcode_table.json, one arm each. -/

namespace Sys2Proof.Machine

/-- What the instruction `i` does in the state `s`. -/
def exec (i : Instr) (s : State) : Host.Outcome State Fault Refusal :=
  match i with
  | .linkDelim => Sys2Proof.Machine.execLinkDelim s
  | .linkEscd => Sys2Proof.Machine.execLinkEscd s
  | .linkEsce => Sys2Proof.Machine.execLinkEsce s
  | .linkEscbad b => Sys2Proof.Machine.execLinkEscbad b s
  | .linkLit b => Sys2Proof.Machine.execLinkLit b s
  | .reqSync checksum payload => Sys2Proof.Machine.execReqSync checksum payload s
  | .reqReadReg checksum payload => Sys2Proof.Machine.execReqReadReg checksum payload s
  | .reqGeneric opcode checksum payload => Sys2Proof.Machine.execReqGeneric opcode checksum payload s
  | .respSync len value remainder status => Sys2Proof.Machine.execRespSync len value remainder status s
  | .respReadReg len value remainder status => Sys2Proof.Machine.execRespReadReg len value remainder status s
  | .respGeneric opcode len value remainder status => Sys2Proof.Machine.execRespGeneric opcode len value remainder status s
  | .msgIllegal f => Sys2Proof.Machine.execMsgIllegal f s
  | .enc p => Sys2Proof.Machine.execEnc p s
  | .dec => Sys2Proof.Machine.execDec s
  | .mksync => Sys2Proof.Machine.execMksync s
  | .mkrdreg a => Sys2Proof.Machine.execMkrdreg a s
  | .ser c => Sys2Proof.Machine.execSer c s
  | .parse f => Sys2Proof.Machine.execParse f s
  | .setlines d r => Sys2Proof.Machine.execSetlines d r s
  | .rstseq => Sys2Proof.Machine.execRstseq s
  | .connect path baud => Sys2Proof.Machine.execConnect path baud s
  | .sync => Sys2Proof.Machine.execSync s
  | .exec c => Sys2Proof.Machine.execExec c s
  | .readreg a => Sys2Proof.Machine.execReadreg a s

end Sys2Proof.Machine
end

