-- ==== Sys2Proof/Machine/Fetch.lean ====
section
/-! DEFINITION. What a step does around `exec`: it takes the next event and finds what that event makes the machine do. Where
an agent's turn brings it to a complete instruction (a symbol in the running DEC, a payload at the receiver, a frame at a
transmitter, a request of the caller) the instruction is read there and handed to `exec`. -/

namespace Sys2Proof.Machine

/-- What an event comes to. -/
inductive Action where
  /-- `exec` runs `i` in `s`. -/
  | run (i : Instr) (s : State)
  /-- The step is over. -/
  | settled (o : Out)
  deriving Repr

/-- The operations, of which the port `op_req` carries one (10_state.md R26). -/
def isOperation (i : Instr) : Bool := layerOf i == .operation

/-- The request a frame carries, if the frame is exactly what ENC and SER make of it. -/
def frameRequest (P : Params) (f : Bytes) : Option Instr :=
  match decRun P decStart f with
  | (.frame m, []) =>
    match decodeRequest P m with
    | .ok (i, []) =>
      match commandOf P i with
      | some c => if commandFrame P c = f ∧ c.WF then some i else none
      | none => none
    | _ => none
  | _ => none

/-- A transmitter writes the frame `f` (43_session.md R183). -/
def fetchFrame (f : Bytes) (s : State) : Action :=
  match frameRequest s.cfg f with
  | some i => .run i s
  | none => .settled (txWrite f s)

/-- The running DEC takes the byte `b`, already removed from RXQ. In a frame, a byte that completes a symbol runs it; `ESC`
alone does not (40_framecodec.md R101); outside a frame only `DELIM` is a symbol (R100). -/
def fetchSymbol (d : Decoder) (b : Byte) (s : State) : Action :=
  match d.st with
  | .hunt => if b = s.cfg.delim then .run .linkDelim s else .settled (feed b s)
  | .drain => if b = s.cfg.delim then .run .linkDelim s else .settled (feed b s)
  | .data =>
    match decodeLink s.cfg [b] with
    | .ok (i, _) => .run i s
    | .error _ => .settled (feed b s)
  | .escaped =>
    match decodeLink s.cfg [s.cfg.esc, b] with
    | .ok (i, _) => .run i s
    | .error _ => .settled (feed b s)

/-- The receiver's turn: it takes the payload it holds (43_session.md R184), or its DEC takes the next byte of RXQ or waits if
there is none (20_memory.md R43). -/
def receiverTurn (s : State) : Action :=
  match s.rxMsg with
  | some f => .run (decodeReceived s.cfg f) { s with rxMsg := none }
  | none =>
    match s.dec with
    | none => .settled (.next s)
    | some d =>
      if s.handle.isNone then .settled (.fault .noTransport)
      else
        match s.rxq with
        | [] => .settled (.next s)
        | b :: r => fetchSymbol d b { s with rxq := r }

/-- The read under the running DEC fails (20_memory.md R44, 40_framecodec.md R106); with no DEC nobody waits for it and it has
no effect (60_exceptions.md R212). Log 9. -/
def readFailed (s : State) : Out :=
  if s.dec.isSome then whenHandle s fun s => .next s.transportError else .next s

/-- The turn of the running EXEC's transmitter (43_session.md R183). -/
def transmitterTurn (s : State) : Action :=
  match s.tx with
  | none => .settled (.next s)
  | some .wait => .settled (.next s)
  | some .test =>
    match s.seesDone with
    | none => .settled (.fault .noExchange)
    | some d => .settled (.next { s with tx := if d then none else some .write })
  | some .write =>
    match s.ex with
    | none => .settled (.fault .noExchange)
    | some e => fetchFrame e.frame { s with tx := some .wait }

/-- The turn of the `k`-th late transmitter (43_session.md R183, R191): at its test it sees `EX.done` and stops. -/
def lateTurn (k : Nat) (s : State) : Action :=
  match s.late[k]? with
  | none => .settled (.next s)
  | some t =>
    match t.pos with
    | .test => .settled (.next { s with late := s.late.eraseIdx k })
    | .wait => .settled (.next s)
    | .write => fetchFrame t.frame { s with late := s.late.set k { t with pos := .wait } }

/-- A retransmit timer fires: a transmitter that waits goes on to its test (60_exceptions.md R214). -/
def TxPos.fired : TxPos → TxPos
  | .wait => .test
  | .test => .test
  | .write => .write

/-- What the event `e` comes to (60_exceptions.md R212 to R216, 43_session.md R170, R189). The failure of a call that is
answered at once is met by `transportCall` in the step of the call; here nobody waits for it and it has no effect. -/
def act (e : Event) (s : State) : Action :=
  match e with
  | .request i => if isOperation i then .run i s else .settled (.refused .notAnOperation)
  | .arrive b => .settled (.next { s with rxq := s.rxq ++ [b] })
  | .take => .settled (.next { s with txq := s.txq.tail })
  | .failOpen => .settled (.next s)
  | .failRead => .settled (readFailed s)
  | .failWrite => .settled (.next s)
  | .failLine => .settled (.next s)
  | .settle => .settled (settled s)
  | .retx => .settled (.next { s with tx := s.tx.map TxPos.fired })
  | .deadline => .settled (if s.dec.isSome then decError .timeoutError s else .next s)
  | .rx => receiverTurn s
  | .tx => transmitterTurn s
  | .late k => lateTurn k s
  | .lateRetx k => .settled (.next { s with late := s.late.modify k fun t => { t with pos := t.pos.fired } })

/-- What the next step does. -/
def fetch (s : State) : Action := act s.upcoming s.taken

/-! ### Placing a table word (log 24) -/

/-- The bytes of one link symbol stand at the running DEC, whose next turn completes it. -/
def placeSymbol (bs : Bytes) (s : State) : State :=
  { s with
    psState := .connected
    handle := some (s.handle.getD 0)
    op := some .dec
    dec := some ⟨if bs.length = 1 then .data else .escaped, []⟩
    rxMsg := none
    tx := none
    rxq := bs.drop (bs.length - 1) ++ s.rxq
    events := .rx :: s.events }

/-- The request `i` is the outstanding command of an EXEC whose transmitter writes it at its next turn. The retransmit event
behind that turn says that the write is not answered by a failure. -/
def placeRequest (i : Instr) (s : State) : State :=
  let c := (commandOf s.cfg i).getD (syncCommand s.cfg)
  { s with
    psState := .synced
    handle := some (s.handle.getD 0)
    op := some .exec
    ex := some (newExchange s.cfg c)
    dec := some decStart
    rxMsg := none
    tx := some .write
    exDone := some false
    events := .tx :: .retx :: s.events }

/-- The payload `f` stands at the receiver of a READREG. -/
def placePayload (f : Bytes) (s : State) : State :=
  { s with
    psState := .synced
    handle := some (s.handle.getD 0)
    op := some .readreg
    ex := some (newExchange s.cfg (readRegCommand s.cfg 0#32))
    exDone := some false
    dec := none
    rxMsg := some f
    tx := some .test
    events := .rx :: s.events }

/-- The instruction of a table word stands where the next step reads it. A word the decoder reads nothing from is placed as
a payload. -/
def placeWord (nbits w : Nat) (s : State) : State :=
  let bs := padWord s.cfg (wordBytes nbits w)
  match wordLayer s.cfg (wordBytes nbits w) with
  | .link => placeSymbol bs s
  | .request =>
    match decodeRequest s.cfg bs with
    | .ok (i, _) => placeRequest i s
    | .error _ => placePayload bs s
  | .received => placePayload bs s
  | .operation => placePayload bs s

end Sys2Proof.Machine
end

