-- ==== Sys2Proof/Machine/Step.lean ====
section
/-! DEFINITION. One step of ESPLINK: the next event is taken, and where it brings an agent to an instruction, that
instruction runs. -/

namespace Sys2Proof.Machine

/-- One step (92_eei_decisions.md D1: at most one byte or one event). -/
def step (s : State) : Host.Outcome State Fault Refusal :=
  match fetch s with
  | .run i s' => exec i s'
  | .settled o => o

/-- `s` with the instruction of a table word standing where its next step reads it. Log 24. -/
def State.withFetchWord (s : State) (nbits w : Nat) : State := placeWord nbits w s

end Sys2Proof.Machine
end

