-- ==== Sys2Proof/Safety.lean ====
section
/-! DEFINITION. What holds of ESPLINK in every state that a run from reset reaches (`State.Inv`), and the words in which
statements speak of its states. -/

namespace Sys2Proof.Machine

/-- All four line values are the pair `(d, r)`: recorded and physical agree (10_state.md R17). -/
abbrev State.linesAre (s : State) (d r : Bool) : Prop :=
  s.lcDtr = d ∧ s.pinDtr = d ∧ s.lcRts = r ∧ s.pinRts = r

/-- Recorded and physical line values agree (10_state.md R17). -/
abbrev State.linesAgree (s : State) : Prop := s.lcDtr = s.pinDtr ∧ s.lcRts = s.pinRts

/-- The session is open: `Connected` or `Synced` (43_session.md R171). -/
abbrev State.isOpen (s : State) : Prop := s.psState = .connected ∨ s.psState = .synced

/-- The caller may request an operation: none runs and the session has not failed (43_session.md R170, R171). -/
abbrev State.idle (s : State) : Prop := s.op = none ∧ s.psState ≠ .failed

/-- No agent of an exchange and no DEC is at work. -/
abbrev State.quiet (s : State) : Prop := s.dec = none ∧ s.rxMsg = none ∧ s.tx = none

/-- No RSTSEQ runs, so there is no `SEQ.step` (10_state.md R23). -/
abbrev State.resting (s : State) : Prop := s.seq = none

/-- RSTSEQ is in one of its two settle waits, the lines as 42_linecontroller.md R161 traces them. -/
abbrev State.resetting (s : State) : Prop :=
  s.quiet ∧ ((s.seq = some .s1 ∧ s.linesAre false true) ∨ (s.seq = some .s2 ∧ s.linesAre true false))

/-- The two agents of an EXEC are at work on the exchange `e`: not done, its transmitter not stopped, its receiver either in
a DEC or holding a payload (43_session.md R181 to R184). -/
abbrev State.inExchange (s : State) (e : Exchange) : Prop :=
  s.ex = some e ∧ s.exDone = some false ∧ s.tx.isSome ∧ (s.rxMsg.isSome ↔ s.dec = none)

/-- What the running operation keeps true of the session state and the working state. -/
def State.opInv (s : State) : Prop :=
  match s.op with
  | none => s.quiet ∧ s.resting
  | some .dec => s.isOpen ∧ s.dec.isSome ∧ s.rxMsg = none ∧ s.tx = none ∧ s.resting
  | some .rstseq => s.isOpen ∧ s.resetting
  | some .sync =>
      s.psState = .connected ∧
        (s.resetting ∨ (s.resting ∧ s.linesAre true false ∧
          ∃ e, s.inExchange e ∧ e.cmd = syncCommand s.cfg))
  | some .exec => s.psState = .synced ∧ s.resting ∧ ∃ e, s.inExchange e
  | some .readreg => s.psState = .synced ∧ s.resting ∧
      ∃ e, s.inExchange e ∧ ∃ a, e.cmd = readRegCommand s.cfg a

/-- `PS.handle` is there exactly when the session has been opened (10_state.md R13, 43_session.md R172, R173). -/
abbrev State.handleInv (s : State) : Prop :=
  (s.psState = .disconnected → s.handle = none) ∧ (s.isOpen → s.handle.isSome)

/-- Every frame kept for transmission is `ENC(SER(c))` of a Command (20_memory.md R41, 43_session.md R181). -/
def State.framesInv (s : State) : Prop :=
  (∀ e, s.ex = some e → e.cmd.WF ∧ e.frame = commandFrame s.cfg e.cmd) ∧
  (∀ t ∈ s.late, ∃ c : Command, c.WF ∧ t.frame = commandFrame s.cfg c)

/-- Outside an EXEC there is no `EX.cmd` and `EX.frame` (10_state.md R32). `EX.done` is true once its EXEC has returned
(43_session.md R191), unless the session has failed (60_exceptions.md R206: it is then not written). -/
def State.doneInv (s : State) : Prop :=
  exchanging s.op = false → s.ex = none ∧ (s.psState ≠ .failed → s.exDone ≠ some false)

/-- The decoder's buffer is empty while it hunts (40_framecodec.md R99, R100), and it discards only under
`FRAMING_RESYNC = drain` (R111). -/
def State.decoderInv (s : State) : Prop :=
  ∀ d, s.dec = some d →
    (d.st = .hunt → d.buf = []) ∧ (d.st = .drain → d.buf = [] ∧ s.cfg.resync = .drain)

/-- Before CONNECT and after a fatal error nothing is at work (43_session.md R171, 60_exceptions.md R206). -/
def State.closedInv (s : State) : Prop :=
  (s.psState = .disconnected → s.op = none ∧ s.late = [] ∧ s.exDone = none) ∧
  (s.psState = .failed → s.op = none ∧ s.late = [])

/-- The invariant of ESPLINK. -/
def State.Inv (s : State) : Prop :=
  s.cfg.WF ∧ s.opInv ∧ s.handleInv ∧ s.framesInv ∧ s.doneInv ∧ s.decoderInv ∧ s.closedInv

/-- How many late transmitters still owe a copy: they stand between their test and their write (43_session.md R183, R194). -/
def State.owed (s : State) : Nat := s.late.countP fun t => t.pos = .write

/-- The last operation of the program has returned: an operation has given its result, none runs, and no request of the caller
is still to come (43_session.md R194, 30_encoding.md R82; log 2). -/
abbrev State.programReturned (s : State) : Prop := s.op = none ∧ s.res.isSome ∧ ∀ i, Event.request i ∉ s.events

/-- A run is over when its last operation has returned and no late copy is owed; `Failed` is never final
(43_session.md R194). -/
abbrev State.runOver (s : State) : Prop := s.programReturned ∧ s.owed = 0 ∧ s.psState ≠ .failed

/-- The next event is the receiver's turn and `b` is the byte its DEC takes: RXQ is `b` and then `r`, no
payload waits to be parsed, and `ev` is what happens later (20_memory.md R43). -/
abbrev State.reads (s : State) (b : Byte) (r : Bytes) (ev : List Event) : Prop :=
  s.events = .rx :: ev ∧ s.rxq = b :: r ∧ s.rxMsg = none ∧ s.handle.isSome = true

/-- A DEC can go on reading: the transport is open and no payload waits to be parsed. -/
abbrev State.receiving (s : State) : Prop := s.rxMsg = none ∧ s.handle.isSome = true

/-- The environment answers a transport call made now with its failure `f`: that is the next event
(60_exceptions.md R215; log 9). -/
abbrev State.callFails (f : Event) (s : State) : Prop := s.upcoming = f

/-- A transmitter can write: the session has not failed and the transport is open. -/
abbrev State.canWrite (s : State) : Prop := s.psState ≠ .failed ∧ s.handle.isSome = true

/-- The opcode, value and status of a response form, under parameters `P`. -/
def responseParts (P : Params) : Instr → Option (Byte × Quad × Bytes)
  | .respSync _ v _ st => some (P.opSync, v, st)
  | .respReadReg _ v _ st => some (P.opReadReg, v, st)
  | .respGeneric op _ v _ st => some (op, v, st)
  | _ => none

/-- The order of progress of the session tag (10_state.md R12), `Failed` last. -/
def SessionState.rank : SessionState → Nat
  | .disconnected => 0
  | .connected => 1
  | .synced => 2
  | .failed => 3

/-- `n` steps, stopping at the first fault or refusal. -/
def run : Nat → State → Out
  | 0, s => .next s
  | n + 1, s =>
    match step s with
    | .next t => run n t
    | .fault r => .fault r
    | .refused r => .refused r

end Sys2Proof.Machine
end

