-- ==== Sys2Proof/Certificates/Slice0/Obligations.lean ====
section
/-! DEFINITION. The statements about ESPLINK for the provers, by file of spec/: encodings, frame codec, wire messages, lines,
session, errors and events, and the rules that hold of the whole machine. Free values (log 2, 5, 7, 8) are constants with no
body: a statement that names one holds whatever it is. -/

open Sys2Proof Sys2Proof.Machine

/-! ### Reset and the invariant -/

/-- R30: after reset the session is `Disconnected` and has no handle. Nothing that belongs to an operation exists
(10_state.md R32). -/
def Obligations.ResetIsDisconnected : Prop :=
  State.reset.psState = .disconnected ∧ State.reset.handle = none ∧ State.reset.ex = none ∧
  State.reset.exDone = none ∧ State.reset.dec = none ∧ State.reset.seq = none ∧ State.reset.op = none

/-- The invariant, the model's own (Safety.lean), holds at reset. -/
def Obligations.ResetMeetsTheInvariant : Prop := State.reset.Inv

/-- Every step keeps the invariant, from every state that meets it, reached or not. -/
def Obligations.StepKeepsTheInvariant : Prop :=
  ∀ s t : State, s.Inv → step s = .next t → t.Inv

/-- Under the invariant no step stops with a fault: the model's faults stand for states that no run reaches (log 21). -/
def Obligations.InvariantRulesOutFaults : Prop :=
  ∀ (s : State) (r : Fault), s.Inv → step s ≠ .fault r

/-! ### A step runs the decoded instruction -/

/-- R82, R170: a request of the caller runs that operation. -/
def Obligations.StepRunsRequestedOperation : Prop :=
  ∀ (s : State) (i : Instr) (ev : List Event), s.events = .request i :: ev → layerOf i = .operation →
    step s = exec i { s with events := ev }

/-- In a frame the byte that completes a symbol runs it: in `DATA` the symbol is that byte, in `ESCAPED` it is `ESC` and that
byte (30_encoding.md R61, R71; log 13). -/
def Obligations.StepRunsLinkSymbol : Prop :=
  ∀ (s : State) (b : Byte) (r buf : Bytes) (ev : List Event) (i : Instr), s.reads b r ev →
    ((s.dec = some ⟨.data, buf⟩ ∧ decode s.cfg .link [b] = .ok (i, [])) ∨
     (s.dec = some ⟨.escaped, buf⟩ ∧ decode s.cfg .link [s.cfg.esc, b] = .ok (i, []))) →
    step s = exec i { s with events := ev, rxq := r }

/-- The receiver's turn runs the payload it holds, read as a received message (30_encoding.md R67, R72; log 14, 16). -/
def Obligations.StepRunsReceivedMessage : Prop :=
  ∀ (s : State) (f : Bytes) (ev : List Event) (i : Instr), s.events = .rx :: ev → s.rxMsg = some f →
    decode s.cfg .received f = .ok (i, []) → step s = exec i { s with events := ev, rxMsg := none }

/-- The transmitter's turn to write runs the request that its frame carries, and its wait begins (43_session.md R183;
log 14). -/
def Obligations.StepRunsOutstandingRequest : Prop :=
  ∀ (s : State) (i : Instr) (ev : List Event) (e : Exchange), s.cfg.WF → s.events = .tx :: ev → s.tx = some .write →
    s.ex = some e → layerOf i = .request → i.wf s.cfg = true → e.frame = encFrame s.cfg (encode s.cfg i) →
    step s = exec i { s with events := ev, tx := some .wait }

/-! ### Encodings (30_encoding.md) -/

/-- A few words written out from the spec's encodings, with the default parameters: `C0`, `DB DC`, `DB DD`, `DB 02`, `05`;
`REQ.READ_REG(0x3FF00050)` of R70; the responses of V-W27 and V-W29; the short payload of V-W21. -/
def Obligations.SampleWordsDecode : Prop :=
  decode defaultParams .link [0xC0#8] = .ok (.linkDelim, []) ∧
  decode defaultParams .link [0xDB#8, 0xDC#8] = .ok (.linkEscd, []) ∧
  decode defaultParams .link [0xDB#8, 0xDD#8] = .ok (.linkEsce, []) ∧
  decode defaultParams .link [0xDB#8, 0x02#8] = .ok (.linkEscbad 0x02#8, []) ∧
  decode defaultParams .link [0x05#8] = .ok (.linkLit 0x05#8, []) ∧
  decode defaultParams .request
    [0x00#8, 0x0A#8, 0x04#8, 0x00#8, 0x00#8, 0x00#8, 0x00#8, 0x00#8, 0x50#8, 0x00#8, 0xF0#8, 0x3F#8] =
      .ok (.reqReadReg 0#32 [0x50#8, 0x00#8, 0xF0#8, 0x3F#8], []) ∧
  decode defaultParams .received
    [0x01#8, 0x0A#8, 0x00#8, 0x00#8, 0x01#8, 0x02#8, 0x03#8, 0x04#8, 0x00#8, 0x00#8, 0x00#8] =
      .ok (.respReadReg 0#16 ⟨0x01#8, 0x02#8, 0x03#8, 0x04#8⟩ [0x00#8] [0x00#8, 0x00#8], []) ∧
  decode defaultParams .received [0x01#8, 0x77#8, 0x02#8, 0x00#8, 0x00#8, 0x00#8, 0x00#8, 0x00#8, 0x00#8, 0x00#8] =
      .ok (.respGeneric 0x77#8 2#16 ⟨0#8, 0#8, 0#8, 0#8⟩ [] [0x00#8, 0x00#8], []) ∧
  decode defaultParams .received [0x01#8, 0x0A#8, 0x02#8, 0x00#8, 0x01#8, 0x02#8, 0x03#8, 0x04#8, 0x00#8] =
      .ok (.msgIllegal [0x01#8, 0x0A#8, 0x02#8, 0x00#8, 0x01#8, 0x02#8, 0x03#8, 0x04#8, 0x00#8], [])

/-- Decoding an encoded instruction gives it back, for every link symbol and message form and every operand the encoding
admits; a link symbol and a request leave the bytes behind them. -/
def Obligations.DecodeInvertsEncode : Prop :=
  ∀ (P : Params) (i : Instr), P.WF → i.wf P = true → layerOf i ≠ .operation →
    decode P (layerOf i) (encode P i) = .ok (i, []) ∧
    ∀ rest : Bytes, layerOf i ≠ .received → decode P (layerOf i) (encode P i ++ rest) = .ok (i, rest)

/-- What the decoder reads is well formed, belongs to the level it was read on, and its bytes are the ones read. -/
def Obligations.EncodeInvertsDecode : Prop :=
  ∀ (P : Params) (l : Layer) (bs rest : Bytes) (i : Instr), P.WF → decode P l bs = .ok (i, rest) →
    layerOf i = l ∧ i.wf P = true ∧ encode P i ++ rest = bs

/-- R62: `|ENC(p)| = |p| + 2 + k`; the shortest frame is `[DELIM, DELIM]`; the longest frame of `n` bytes has `2n + 2`. -/
def Obligations.FrameLength : Prop :=
  ∀ P : Params,
    (∀ p : Bytes, (encFrame P p).length = p.length + 2 + p.countP (fun b => b = P.delim ∨ b = P.esc)) ∧
    encFrame P [] = [P.delim, P.delim] ∧
    (∀ p : Bytes, 2 ≤ (encFrame P p).length ∧ (encFrame P p).length ≤ 2 * p.length + 2) ∧
    (∀ n : Nat, ∃ p : Bytes, p.length = n ∧ (encFrame P p).length = 2 * n + 2)

/-- R63: (a) no body byte is `DELIM`; (b) every body byte `ESC` is followed by a code byte and is no second byte of an escape;
(c) the body does not end with `ESC`. -/
def Obligations.FrameBodyHasNoBareSpecial : Prop :=
  ∀ (P : Params) (p : Bytes), P.WF →
    P.delim ∉ encBody P p ∧
    (∀ k : Nat, (encBody P p)[k]? = some P.esc →
      ((encBody P p)[k + 1]? = some P.escDelim ∨ (encBody P p)[k + 1]? = some P.escEsc) ∧
      ∀ j : Nat, j + 1 = k → (encBody P p)[j]? ≠ some P.esc) ∧
    (encBody P p).getLast? ≠ some P.esc

/-! ### FrameCodec (40_framecodec.md) -/

/-- R91: ENC wraps the payload between two delimiters and escapes the special bytes; it changes nothing but the result. -/
def Obligations.EncWrapsAndEscapes : Prop :=
  ∀ (p : Bytes) (s : State), s.idle →
    exec (.enc p) s = .next { s with res := some (.bytes ([s.cfg.delim] ++
      p.flatMap (fun b => if b = s.cfg.delim then [s.cfg.esc, s.cfg.escDelim]
        else if b = s.cfg.esc then [s.cfg.esc, s.cfg.escEsc] else [b]) ++ [s.cfg.delim])) }

/-- R92: the byte-serial encoder emits exactly `ENC(p)` and then nothing. -/
def Obligations.ByteSerialEncoderEmitsEnc : Prop :=
  ∀ (P : Params) (p : Bytes) (n : Nat), emitAll P ((encFrame P p).length + n) (.opening p) = encFrame P p

/-- DEC requested directly starts in `HUNT` with an empty buffer (40_framecodec.md R98, R99); its bytes are later steps. -/
def Obligations.DecStartsHunting : Prop :=
  ∀ s : State, s.idle → s.isOpen → s.handle.isSome = true →
    exec .dec s = .next { s with op := some .dec, dec := some ⟨.hunt, []⟩, res := none }

/-- R100: in `HUNT` a `DELIM` opens a frame and every other byte is discarded; either is consumed. -/
def Obligations.HuntDiscardsToDelimiter : Prop :=
  ∀ (s : State) (b : Byte) (r buf : Bytes) (ev : List Event), s.reads b r ev → s.dec = some ⟨.hunt, buf⟩ →
    step s = .next { s with
      events := ev, rxq := r, dec := some ⟨if b = s.cfg.delim then .data else .hunt, buf⟩ }

/-- R101: in `DATA` an `ESC` is consumed and `DEC.buf` is unchanged. -/
def Obligations.EscapeIntroducerIsRemembered : Prop :=
  ∀ (s : State) (r buf : Bytes) (ev : List Event), s.cfg.WF → s.reads s.cfg.esc r ev → s.dec = some ⟨.data, buf⟩ →
    step s = .next { s with events := ev, rxq := r, dec := some ⟨.escaped, buf⟩ }

/-- R102: in `DATA` any byte but `ESC` is a literal or, if it is `DELIM`, closes the frame, and DEC gives it to the caller. In
an EXEC (third clause) the payload waits in `rxMsg` and the receiver's PARSE is a step of its own: that is the model's choice
(log 16, DESIGN CHOICE). -/
def Obligations.DataExtendsOrClosesFrame : Prop :=
  ∀ (s : State) (b : Byte) (r buf : Bytes) (ev : List Event), s.reads b r ev → s.dec = some ⟨.data, buf⟩ → b ≠ s.cfg.esc →
    (b ≠ s.cfg.delim → step s = .next { s with events := ev, rxq := r, dec := some ⟨.data, buf ++ [b]⟩ }) ∧
    (b = s.cfg.delim → s.op = some .dec →
      step s = .next { s with events := ev, rxq := r, dec := none, op := none, res := some (.frame buf) }) ∧
    (b = s.cfg.delim → exchanging s.op = true →
      step s = .next { s with events := ev, rxq := r, dec := none, rxMsg := some buf })

/-- R103: in `ESCAPED` the two codes give `DELIM` and `ESC`. -/
def Obligations.EscapeCodesAreUndone : Prop :=
  ∀ (s : State) (r buf : Bytes) (ev : List Event), s.cfg.WF → s.dec = some ⟨.escaped, buf⟩ →
    (s.reads s.cfg.escDelim r ev →
      step s = .next { s with events := ev, rxq := r, dec := some ⟨.data, buf ++ [s.cfg.delim]⟩ }) ∧
    (s.reads s.cfg.escEsc r ev →
      step s = .next { s with events := ev, rxq := r, dec := some ⟨.data, buf ++ [s.cfg.esc]⟩ })

/-- R104: in `ESCAPED` any other byte, `DELIM` and `ESC` included, is consumed and raises FramingError at once; every later
byte stays in RXQ. In an EXEC the next DEC starts. -/
def Obligations.MalformedEscapeIsFramingError : Prop :=
  ∀ (s : State) (b : Byte) (r buf : Bytes) (ev : List Event), s.cfg.WF → s.cfg.resync = .immediate → s.reads b r ev →
    s.dec = some ⟨.escaped, buf⟩ → b ≠ s.cfg.escDelim → b ≠ s.cfg.escEsc →
    (s.op = some .dec → step s = .next { s with
      events := ev, rxq := r, dec := none, op := none, res := some (.error .framingError) }) ∧
    (exchanging s.op = true → step s = .next { s with events := ev, rxq := r, dec := some ⟨.hunt, []⟩, rxMsg := none })

/-- R111: under `drain` a malformed escape discards to the next `DELIM` and then raises FramingError, at once if the offending
byte is that `DELIM`; the deadline still gives TimeoutError. In an EXEC the next DEC starts (log 23). -/
def Obligations.DrainDiscardsToDelimiter : Prop :=
  ∀ (s : State) (ev : List Event), s.cfg.WF → s.cfg.resync = .drain →
    (∀ (b : Byte) (r buf : Bytes), s.reads b r ev → s.dec = some ⟨.escaped, buf⟩ →
      b ≠ s.cfg.escDelim → b ≠ s.cfg.escEsc → b ≠ s.cfg.delim →
      step s = .next { s with events := ev, rxq := r, dec := some ⟨.drain, []⟩ }) ∧
    (∀ (b : Byte) (r buf : Bytes), s.reads b r ev → s.dec = some ⟨.drain, buf⟩ → b ≠ s.cfg.delim →
      step s = .next { s with events := ev, rxq := r, dec := some ⟨.drain, buf⟩ }) ∧
    (∀ (r buf : Bytes) (st : DecSt), s.reads s.cfg.delim r ev → s.dec = some ⟨st, buf⟩ → st = .escaped ∨ st = .drain →
      (s.op = some .dec → step s = .next { s with
        events := ev, rxq := r, dec := none, op := none, res := some (.error .framingError) }) ∧
      (exchanging s.op = true → step s = .next { s with
        events := ev, rxq := r, dec := some ⟨.hunt, []⟩, rxMsg := none })) ∧
    (∀ d : Decoder, s.events = .deadline :: ev → s.dec = some d → s.op = some .dec →
      step s = .next { s with events := ev, dec := none, op := none, res := some (.error .timeoutError) })

/-- R100 to R104 at the symbol: with no DEC its bytes wait in RXQ (log 13); a DEC that hunts takes LINK.DELIM for an opening
and discards the others; in a frame each symbol does what its rule says, LINK.ESCBAD by `FRAMING_RESYNC` (R104, R111). -/
def Obligations.LinkSymbolsMoveTheDecoder : Prop :=
  ∀ (s : State) (buf : Bytes) (b : Byte), s.cfg.WF →
    (s.dec = none →
      exec .linkDelim s = .next { s with rxq := s.rxq ++ [s.cfg.delim] } ∧
      exec .linkEscd s = .next { s with rxq := s.rxq ++ [s.cfg.esc, s.cfg.escDelim] } ∧
      exec .linkEsce s = .next { s with rxq := s.rxq ++ [s.cfg.esc, s.cfg.escEsc] } ∧
      exec (.linkEscbad b) s = .next { s with rxq := s.rxq ++ [s.cfg.esc, b] } ∧
      exec (.linkLit b) s = .next { s with rxq := s.rxq ++ [b] }) ∧
    (s.dec = some ⟨.hunt, buf⟩ →
      exec .linkDelim s = .next { s with dec := some ⟨.data, buf⟩ } ∧
      exec .linkEscd s = .next s ∧ exec .linkEsce s = .next s ∧
      (b ≠ s.cfg.delim → exec (.linkEscbad b) s = .next s ∧ exec (.linkLit b) s = .next s)) ∧
    (s.dec = some ⟨.data, buf⟩ →
      (s.op = some .dec →
        exec .linkDelim s = .next { s with dec := none, op := none, res := some (.frame buf) }) ∧
      (exchanging s.op = true → exec .linkDelim s = .next { s with dec := none, rxMsg := some buf }) ∧
      (b ≠ s.cfg.delim → b ≠ s.cfg.esc →
        exec (.linkLit b) s = .next { s with dec := some ⟨.data, buf ++ [b]⟩ }) ∧
      exec .linkEscd s = .next { s with dec := some ⟨.data, buf ++ [s.cfg.delim]⟩ } ∧
      exec .linkEsce s = .next { s with dec := some ⟨.data, buf ++ [s.cfg.esc]⟩ } ∧
      (b ≠ s.cfg.escDelim → b ≠ s.cfg.escEsc →
        (s.cfg.resync = .immediate ∨ b = s.cfg.delim →
          (s.op = some .dec → exec (.linkEscbad b) s =
            .next { s with dec := none, op := none, res := some (.error .framingError) }) ∧
          (exchanging s.op = true → exec (.linkEscbad b) s =
            .next { s with dec := some ⟨.hunt, []⟩, rxMsg := none })) ∧
        (s.cfg.resync = .drain → b ≠ s.cfg.delim →
          exec (.linkEscbad b) s = .next { s with dec := some ⟨.drain, []⟩ })))

/-- R203: the deadline, in any decoder state (40_framecodec.md R105), discards the partial payload and raises TimeoutError;
bytes consumed stay consumed. In an EXEC the next DEC starts (43_session.md R185). -/
def Obligations.DeadlineRaisesTimeout : Prop :=
  ∀ (s : State) (d : Decoder) (ev : List Event), s.events = .deadline :: ev → s.dec = some d →
    (s.op = some .dec → step s =
      .next { s with events := ev, dec := none, op := none, res := some (.error .timeoutError) }) ∧
    (exchanging s.op = true → step s = .next { s with events := ev, dec := some ⟨.hunt, []⟩, rxMsg := none })

/-- R106: a failed read in any state discards the buffer and raises TransportError, which aborts the session
(60_exceptions.md R206), every agent at once (log 10); no byte is consumed. R212: an event nobody waits for has no effect,
neither a timer event nor a transport failure, of which nothing stays pending (log 9). -/
def Obligations.ReadFailureIsFatal : Prop :=
  ∀ (s : State) (ev : List Event),
    (∀ d : Decoder, s.events = .failRead :: ev → s.dec = some d → s.handle.isSome = true →
      step s = .next { s with
        events := ev, psState := .failed, op := none, ex := none, dec := none, seq := none, tx := none, rxMsg := none,
        late := [], res := some (.error .transportError) }) ∧
    (∀ e : Event, s.events = e :: ev →
      (s.dec = none ∧ (e = .failRead ∨ e = .deadline)) ∨ (s.seq = none ∧ e = .settle) ∨
      (s.tx ≠ some .wait ∧ e = .retx) ∨ (∃ k, s.late[k]? = none ∧ e = .lateRetx k) ∨
      e = .failOpen ∨ e = .failWrite ∨ e = .failLine →
      step s = .next { s with events := ev })

/-- R107: with `FRAMING_RESYNC = immediate` the list function and the machine give the same result and consume the same
bytes. -/
def Obligations.ListDecoderIsTheMachine : Prop :=
  ∀ (P : Params) (s : Bytes), P.resync = .immediate → listDec P s = decRun P decStart s

/-- R108: a frame decodes to its payload behind garbage without `DELIM`, and whatever follows it stays; behind garbage that
holds a `DELIM` it does not. -/
def Obligations.RoundTripBehindGarbage : Prop :=
  ∀ (P : Params) (g p t : Bytes), P.WF →
    (P.delim ∉ g → decRun P decStart (g ++ encFrame P p ++ t) = (.frame p, t)) ∧
    (P.delim ∈ g → decRun P decStart (g ++ encFrame P p ++ t) ≠ (.frame p, t))

/-- R98, R107 and 20_memory.md R46 on the machine itself: a DEC requested directly, given its turns and then the deadline,
returns what `decRun` returns and leaves in RXQ what `decRun` leaves. -/
def Obligations.DirectDecComputesDecRun : Prop :=
  ∀ (s : State) (d : Decoder) (rest : Bytes) (ev : List Event), s.cfg.WF → s.op = some .dec → s.dec = some d →
    s.receiving →
    (∀ p : Bytes, decRun s.cfg d s.rxq = (.frame p, rest) →
      s.events = List.replicate (s.rxq.length - rest.length) .rx ++ ev →
      run (s.rxq.length - rest.length) s =
        .next { s with events := ev, rxq := rest, dec := none, op := none, res := some (.frame p) }) ∧
    (decRun s.cfg d s.rxq = (.framingError, rest) →
      s.events = List.replicate (s.rxq.length - rest.length) .rx ++ ev →
      run (s.rxq.length - rest.length) s =
        .next { s with events := ev, rxq := rest, dec := none, op := none, res := some (.error .framingError) }) ∧
    (decRun s.cfg d s.rxq = (.timeoutError, rest) →
      s.events = List.replicate s.rxq.length .rx ++ .deadline :: ev →
      run (s.rxq.length + 1) s =
        .next { s with events := ev, rxq := [], dec := none, op := none, res := some (.error .timeoutError) })

/-! ### WireMessage (41_wiremessage.md) -/

/-- R121, R122: MKSYNC gives `{OP_SYNC, 0, SYNC_MAGIC}`, whose payload has 36 bytes; MKRDREG a gives
`{OP_READ_REG, 0, le32(a)}`, for every 32-bit `a`. -/
def Obligations.ConstructorsBuildTheirCommands : Prop :=
  ∀ (s : State) (a : Word), s.idle → s.cfg.WF →
    exec .mksync s = .next { s with res := some (.command ⟨s.cfg.opSync, 0#32, s.cfg.syncMagic⟩) } ∧
    s.cfg.syncMagic.length = 36 ∧
    exec (.mkrdreg a) s = .next { s with res := some (.command ⟨s.cfg.opReadReg, 0#32,
      [a.extractLsb' 0 8, a.extractLsb' 8 8, a.extractLsb' 16 8, a.extractLsb' 24 8]⟩) }

/-- R124: SER lays out direction, opcode, length, checksum and payload. -/
def Obligations.SerLaysOutTheRequest : Prop :=
  ∀ (s : State) (op : Byte) (ck : Word) (pl : Bytes), s.idle → pl.length ≤ 65535 →
    exec (.ser ⟨op, ck, pl⟩) s = .next { s with res := some (.bytes (
      [0x00#8, op, BitVec.ofNat 8 pl.length, BitVec.ofNat 8 (pl.length / 256),
       ck.extractLsb' 0 8, ck.extractLsb' 8 8, ck.extractLsb' 16 8, ck.extractLsb' 24 8] ++ pl)) }

/-- R125: a payload of more than 65535 bytes is refused: SER is not defined for it, nor EXEC. -/
def Obligations.LongPayloadIsRefused : Prop :=
  ∀ (s : State) (c : Command), s.idle → 65535 < c.payload.length →
    exec (.ser c) s = .refused .notACommand ∧
    (s.psState = .synced → exec (.exec c) s = .refused .notACommand)

/-- R126: length, direction byte, length field, injectivity, and the zero checksum of the two constructors. -/
def Obligations.SerProperties : Prop :=
  (∀ c : Command, c.WF →
    (serialise c).length = 8 + c.payload.length ∧ (serialise c)[0]? = some 0x00#8 ∧
    ∃ l h : Byte, (serialise c)[2]? = some l ∧ (serialise c)[3]? = some h ∧ l.toNat + 256 * h.toNat = c.payload.length) ∧
  (∀ c d : Command, c.WF → d.WF → serialise c = serialise d → c = d) ∧
  (∀ (P : Params) (a : Word) (k : Nat), 4 ≤ k → k ≤ 7 →
    (serialise (syncCommand P))[k]? = some 0x00#8 ∧ (serialise (readRegCommand P a))[k]? = some 0x00#8)

/-- R130: PARSE gives ParseError on a short payload or a wrong direction marker, and otherwise the Response with the
fields at their places. -/
def Obligations.ParseExtractsTheFields : Prop :=
  ∀ (s : State) (f : Bytes), s.idle →
    (f.length < 8 + s.cfg.nStatus ∨ f[0]? ≠ some 0x01#8 →
      exec (.parse f) s = .next { s with res := some (.error .parseError) }) ∧
    (8 + s.cfg.nStatus ≤ f.length → f[0]? = some 0x01#8 →
      ∃ x : Response, exec (.parse f) s = .next { s with res := some (.response x) } ∧
        f[1]? = some x.opcode ∧
        f[4]? = some x.value.b0 ∧ f[5]? = some x.value.b1 ∧ f[6]? = some x.value.b2 ∧ f[7]? = some x.value.b3 ∧
        x.status = f.drop (f.length - s.cfg.nStatus) ∧ x.status.length = s.cfg.nStatus ∧ x.raw = f)

/-- R134: the length field and the remainder have no part in the opcode, value and status of a Response. -/
def Obligations.ParseReadsOnlyItsFields : Prop :=
  ∀ (P : Params) (op : Byte) (len len' : Half) (v : Quad) (rem rem' st : Bytes), st.length = P.nStatus →
    ∃ x y : Response, parseResponse P (encodeResponse op len v rem st) = .ok x ∧
      parseResponse P (encodeResponse op len' v rem' st) = .ok y ∧
      x.opcode = op ∧ y.opcode = op ∧ x.value = v ∧ y.value = v ∧ x.status = st ∧ y.status = st

/-- R136: PARSE gives a Response or ParseError and nothing else, and ParseError on every serialised Command. -/
def Obligations.ParseIsTotalAndRejectsRequests : Prop :=
  ∀ s : State, s.idle →
    (∀ f : Bytes, ∃ r : Result, exec (.parse f) s = .next { s with res := some r } ∧
      ((∃ x, r = .response x) ∨ r = .error .parseError)) ∧
    (∀ c : Command, exec (.parse (serialise c)) s = .next { s with res := some (.error .parseError) })

/-! ### Message forms (43_session.md R182 to R187) -/

/-- A request form is what a transmitter writes: whole, framed, at the tail of TXQ (20_memory.md R42, 43_session.md R183);
nothing else changes. That a request row is this write is the model's choice (log 14). -/
def Obligations.RequestFormsEnterTxq : Prop :=
  ∀ (s : State) (op : Byte) (ck : Word) (pl : Bytes), s.canWrite → ¬ s.callFails .failWrite → pl.length ≤ 65535 →
    exec (.reqSync ck pl) s =
      .next { s with txq := s.txq ++ encFrame s.cfg (encode s.cfg (.reqSync ck pl)) } ∧
    exec (.reqReadReg ck pl) s =
      .next { s with txq := s.txq ++ encFrame s.cfg (encode s.cfg (.reqReadReg ck pl)) } ∧
    exec (.reqGeneric op ck pl) s =
      .next { s with txq := s.txq ++ encFrame s.cfg (encode s.cfg (.reqGeneric op ck pl)) }

/-- A failed write appends nothing and aborts the session: the running operation reports TransportError, and if none runs the
result already given stays (43_session.md R188, 60_exceptions.md R206, R221 as the model reads them: log 10, 11, 14). The
call fails where its failure is the next event, which is then taken (log 9). -/
def Obligations.WriteFailureIsFatal : Prop :=
  ∀ (s : State) (i : Instr) (c : Command), commandOf s.cfg i = some c → c.WF → s.psState ≠ .failed →
    s.handle.isSome = true → s.callFails .failWrite →
    exec i s = .next { s.taken with
      psState := .failed, op := none, ex := none, dec := none, seq := none, tx := none, rxMsg := none, late := [],
      res := if s.op.isSome then some (.error .transportError) else s.res }

/-- R187, R175, R195: the first Response with the outstanding opcode sets `EX.done` and ends EXEC, SYNC or READREG with the
Response, ok and `Synced`, or the value, in one step (log 30); `EX.cmd` and `EX.frame` are gone (10_state.md R32), and the
transmitter is left to see `EX.done` (log 27). -/
def Obligations.MatchingReplyEndsTheExchange : Prop :=
  ∀ (s : State) (i : Instr) (v : Quad) (st : Bytes) (e : Exchange), exchanging s.op = true → s.ex = some e →
    responseParts s.cfg i = some (e.cmd.opcode, v, st) → st.length = s.cfg.nStatus →
    exec i s = .next { s with
      ex := none, exDone := some true, dec := none, rxMsg := none, tx := none, op := none,
      late := s.late ++ (match s.tx with | some p => [⟨e.frame, p⟩] | none => []),
      psState := if s.op = some .sync then .synced else s.psState,
      res := some (if s.op = some .sync then .ok else if s.op = some .readreg then .value v
        else .response ⟨e.cmd.opcode, v, st, encode s.cfg i⟩) }

/-- R186: a Response with another opcode is discarded and the next DEC starts; nothing else changes. -/
def Obligations.MismatchedReplyProlongsTheLoop : Prop :=
  ∀ (s : State) (i : Instr) (op : Byte) (v : Quad) (st : Bytes) (e : Exchange), exchanging s.op = true → s.ex = some e →
    responseParts s.cfg i = some (op, v, st) → st.length = s.cfg.nStatus → op ≠ e.cmd.opcode →
    exec i s = .next { s with dec := some ⟨.hunt, []⟩, rxMsg := none }

/-- R72, R131, R132, R185: a payload that is no response is discarded in an EXEC and the next DEC starts; outside one it is a
PARSE requested directly and gives ParseError, as a response form there gives its Response (log 14). -/
def Obligations.IllegalMessageIsParseError : Prop :=
  ∀ (s : State) (f : Bytes), (Instr.msgIllegal f).wf s.cfg = true →
    (∀ e : Exchange, exchanging s.op = true → s.ex = some e →
      exec (.msgIllegal f) s = .next { s with dec := some ⟨.hunt, []⟩, rxMsg := none }) ∧
    (s.idle → exec (.msgIllegal f) s = .next { s with res := some (.error .parseError) } ∧
      ∀ (i : Instr) (op : Byte) (v : Quad) (st : Bytes), responseParts s.cfg i = some (op, v, st) →
        st.length = s.cfg.nStatus →
        exec i s = .next { s with res := some (.response ⟨op, v, st, encode s.cfg i⟩) })

/-! ### LineController (42_linecontroller.md) -/

/-- R152: SETLINES sets both lines, recorded and physical, in one step, and nothing else changes but the result; if the line
call fails it gives TransportError. -/
def Obligations.SetlinesSetsBothLines : Prop :=
  ∀ (s : State) (d r : Bool), s.idle → s.isOpen → s.handle.isSome = true →
    (¬ s.callFails .failLine →
      exec (.setlines d r) s = .next { s with pinDtr := d, pinRts := r, lcDtr := d, lcRts := r, res := some .ok }) ∧
    (s.callFails .failLine →
      ∃ t : State, exec (.setlines d r) s = .next t ∧ t.res = some (.error .transportError) ∧ t.psState = .failed)

/-- 42_linecontroller.md R153: a failed SETLINES gives TransportError and leaves the four line values free, so they need not
agree. The free values are the model's (log 7), whatever they are; that every agent stops is log 10, and that the failure is the
next event and is taken is log 9. -/
def Obligations.SetlinesFailureFreesTheLines : Prop :=
  ∀ (s : State) (d r : Bool), s.idle → s.isOpen → s.handle.isSome = true → s.callFails .failLine →
    exec (.setlines d r) s = .next { s.taken with
      lcDtr := Config.freeBit s.freeTick, lcRts := Config.freeBit (s.freeTick + 1),
      pinDtr := Config.freeBit (s.freeTick + 2), pinRts := Config.freeBit (s.freeTick + 3), freeTick := s.freeTick + 4,
      psState := .failed, op := none, ex := none, dec := none, seq := none, rxMsg := none, tx := none, late := [],
      res := some (.error .transportError) }

/-- R156 (R155, R175): RSTSEQ, and SYNC, begin with the pair (deasserted, asserted) and then stand in `S1`; if the line call
fails they end with TransportError and no later step runs. That the first pattern is set in the request's own step is the
model's choice (log 17), and so is `res := none` (log 18). -/
def Obligations.ResetSequenceFirstPattern : Prop :=
  ∀ s : State, s.idle → s.handle.isSome = true →
    (¬ s.callFails .failLine → s.isOpen → exec .rstseq s = .next { s with
      pinDtr := false, pinRts := true, lcDtr := false, lcRts := true, seq := some .s1, op := some .rstseq, res := none }) ∧
    (¬ s.callFails .failLine → s.psState = .connected → exec .sync s = .next { s with
      pinDtr := false, pinRts := true, lcDtr := false, lcRts := true, seq := some .s1, op := some .sync, res := none }) ∧
    (∀ i : Instr, s.callFails .failLine → (i = .rstseq ∧ s.isOpen) ∨ (i = .sync ∧ s.psState = .connected) →
      ∃ t : State, exec i s = .next t ∧ t.res = some (.error .transportError) ∧ t.psState = .failed ∧ t.seq = none ∧
        t.op = none)

/-- R158: the settle event in `S1` puts the pair (asserted, deasserted) on the lines in one step and leads to `S2`; if the line
call fails RSTSEQ ends with TransportError. -/
def Obligations.SettleAppliesTheSecondPattern : Prop :=
  ∀ (s : State) (ev : List Event), s.events = .settle :: ev → s.seq = some .s1 → s.handle.isSome = true →
    (¬ State.callFails .failLine { s with events := ev } → step s = .next { s with
      events := ev, pinDtr := true, pinRts := false, lcDtr := true, lcRts := false, seq := some .s2 }) ∧
    (State.callFails .failLine { s with events := ev } →
      ∃ t : State, step s = .next t ∧ t.res = some (.error .transportError) ∧ t.psState = .failed ∧ t.seq = none ∧
        t.op = none)

/-- R160: the settle event in `S2` ends RSTSEQ with ok and no line changes, and `SEQ.step` is gone with it (10_state.md R23,
R32). In SYNC the same step starts the EXEC of the sync command (43_session.md R175, R181): that it is one step is the model's
choice (log 17). -/
def Obligations.SettleEndsTheResetSequence : Prop :=
  ∀ (s : State) (ev : List Event), s.events = .settle :: ev → s.seq = some .s2 →
    (s.op = some .rstseq → step s = .next { s with events := ev, seq := none, op := none, res := some .ok }) ∧
    (s.op = some .sync → step s = .next { s with
      events := ev, seq := none, dec := some ⟨.hunt, []⟩, rxMsg := none, tx := some .test, res := none,
      ex := some ⟨⟨s.cfg.opSync, 0#32, s.cfg.syncMagic⟩,
        encFrame s.cfg (serialise ⟨s.cfg.opSync, 0#32, s.cfg.syncMagic⟩)⟩,
      exDone := some false })

/-- R150: the lines change only in the steps of LC's operations and of the settle event, and those steps touch no byte stream.
Recorded and physical values that agree go on agreeing unless the session fails (10_state.md R17). -/
def Obligations.LinesMoveOnlyThroughSetlines : Prop :=
  ∀ s t : State, step s = .next t →
    let e := s.upcoming
    ((∀ d r, e ≠ .request (.setlines d r)) → e ≠ .request .rstseq → e ≠ .request .sync → e ≠ .settle →
      t.lcDtr = s.lcDtr ∧ t.lcRts = s.lcRts ∧ t.pinDtr = s.pinDtr ∧ t.pinRts = s.pinRts) ∧
    ((∃ d r, e = .request (.setlines d r)) ∨ e = .request .rstseq ∨ e = .request .sync ∨ e = .settle →
      t.rxq = s.rxq ∧ t.txq = s.txq) ∧
    (s.linesAgree → t.psState ≠ .failed → t.linesAgree)

/-! ### ProtocolSession (43_session.md) -/

/-- R172, R173: from `Disconnected`, where there is no handle, CONNECT opens the transport, records the bit rate and goes to
`Connected`, with an opaque handle; if the device cannot be opened it fails fatally and there is no handle. Which handle it is,
and the count `freeTick`, are the model's (log 8). -/
def Obligations.ConnectOpensOrFails : Prop :=
  ∀ (s : State) (path : Bytes) (baud : Nat), s.handleInv → s.op = none → s.psState = .disconnected →
    (¬ s.callFails .failOpen → ∃ h : Nat, exec (.connect path baud) s = .next { s with
      handle := some h, baud := baud, psState := .connected, res := some .ok, freeTick := s.freeTick + 1 }) ∧
    (s.callFails .failOpen → ∃ t : State, exec (.connect path baud) s = .next t ∧
      t.psState = .failed ∧ t.res = some (.error .transportError) ∧ t.handle = none ∧ t.baud = s.baud ∧
      t.rxq = s.rxq ∧ t.txq = s.txq ∧ t.lcDtr = s.lcDtr ∧ t.lcRts = s.lcRts ∧ t.pinDtr = s.pinDtr ∧ t.pinRts = s.pinRts)

/-- R181, R195: EXEC and READREG set `EX.*`, start the receiver's DEC and make the transmitter runnable; RXQ is not
flushed. -/
def Obligations.ExecStartsBothAgents : Prop :=
  ∀ (s : State) (c : Command) (a : Word), s.idle → s.psState = .synced → s.handle.isSome = true →
    (c.payload.length ≤ 65535 → exec (.exec c) s = .next { s with
      op := some .exec, ex := some ⟨c, encFrame s.cfg (serialise c)⟩, exDone := some false, dec := some ⟨.hunt, []⟩,
      rxMsg := none, tx := some .test, res := none }) ∧
    exec (.readreg a) s = .next { s with
      op := some .readreg,
      ex := some ⟨⟨s.cfg.opReadReg, 0#32, le32 a⟩, encFrame s.cfg (serialise ⟨s.cfg.opReadReg, 0#32, le32 a⟩)⟩,
      exDone := some false,
      dec := some ⟨.hunt, []⟩, rxMsg := none, tx := some .test, res := none }

/-- R171, R170, R192, R206: every operation is refused in `Failed` and while another runs, and otherwise outside the session
state the table gives it. Where two refusals apply the spec gives no order: that failed goes before busy, and the session state
before the length of the operand, is the model's choice (log 26). -/
def Obligations.OperationsAreRefusedOutsideTheirState : Prop :=
  ∀ (s : State) (i : Instr), layerOf i = .operation →
    (s.psState = .failed → exec i s = .refused .sessionFailed) ∧
    (s.psState ≠ .failed → s.op ≠ none → exec i s = .refused .busy) ∧
    (s.idle →
      (s.psState ≠ .disconnected → ∀ path baud, exec (.connect path baud) s = .refused .wrongState) ∧
      (s.psState ≠ .connected → exec .sync s = .refused .wrongState) ∧
      (s.psState ≠ .synced → ∀ c a, exec (.exec c) s = .refused .wrongState ∧ exec (.readreg a) s = .refused .wrongState) ∧
      (s.psState = .disconnected → ∀ d r, exec (.setlines d r) s = .refused .wrongState ∧
        exec .rstseq s = .refused .wrongState ∧ exec .dec s = .refused .wrongState))

/-- R183: the transmitter's loop. It tests, and stops or goes on to write; it writes the whole frame and waits; the retransmit
event ends its wait (60_exceptions.md R214). A late transmitter writes the copy it owes, waits, and stops at its test
(log 27). -/
def Obligations.TransmitterLoop : Prop :=
  ∀ (s : State) (ev : List Event),
    (∀ d : Bool, s.events = .tx :: ev → s.tx = some .test → s.exDone = some d →
      step s = .next { s with events := ev, tx := if d then none else some .write }) ∧
    (∀ e : Exchange, s.events = .tx :: ev → s.tx = some .write → s.ex = some e → s.canWrite →
      ¬ State.callFails .failWrite { s with events := ev } →
      step s = .next { s with events := ev, tx := some .wait, txq := s.txq ++ e.frame }) ∧
    (s.events = .retx :: ev → s.tx = some .wait → step s = .next { s with events := ev, tx := some .test }) ∧
    (∀ (k : Nat) (f : Bytes), s.events = .late k :: ev → s.late[k]? = some ⟨f, .write⟩ → s.canWrite →
      ¬ State.callFails .failWrite { s with events := ev } →
      step s = .next { s with events := ev, late := s.late.set k ⟨f, .wait⟩, txq := s.txq ++ f }) ∧
    (∀ (k : Nat) (f : Bytes), s.events = .lateRetx k :: ev → s.late[k]? = some ⟨f, .wait⟩ →
      step s = .next { s with events := ev, late := s.late.set k ⟨f, .test⟩ }) ∧
    (∀ (k : Nat) (f : Bytes), s.events = .late k :: ev → s.late[k]? = some ⟨f, .test⟩ →
      step s = .next { s with events := ev, late := s.late.eraseIdx k })

/-- R183, R191: a step owes at most one more late copy, and only a receiver's turn does; a late copy written is owed no
more. R194: a run that is over stays over at every event that comes, with its last result, and ESPLINK writes no byte. -/
def Obligations.LateCopiesAreWrittenOnce : Prop :=
  ∀ s t : State, step s = .next t →
    t.owed ≤ s.owed + 1 ∧
    (s.upcoming ≠ .rx → t.owed ≤ s.owed) ∧
    (∀ k : Nat, s.upcoming = .late k → t.txq ≠ s.txq → t.owed + 1 = s.owed) ∧
    (s.Inv → s.runOver → s.events ≠ [] → t.runOver ∧ t.res = s.res ∧ (t.txq = s.txq ∨ s.upcoming = .take))

/-- R176, R175: from `Connected`, SYNC drives the reset sequence and returns ok in `Synced` when RXQ holds noise without
`DELIM` and then a frame that parses to a Response with opcode `OP_SYNC`, whatever its value and status; exactly those bytes
are consumed. The schedule is the one in which the receiver runs first, so that no copy is written (R189); its steps are cut as
log 16, 17 and 30 say. -/
def Obligations.SyncSucceedsThroughNoise : Prop :=
  ∀ (s : State) (g f t : Bytes) (x : Response) (ev : List Event), s.cfg.WF → s.op = none → s.psState = .connected →
    s.handle.isSome = true → s.cfg.delim ∉ g → s.rxq = g ++ encFrame s.cfg f ++ t → parseResponse s.cfg f = .ok x →
    x.opcode = s.cfg.opSync →
    s.events = .request .sync :: .settle :: .settle ::
      (List.replicate (g.length + (encFrame s.cfg f).length + 1) .rx ++ ev) →
    ∃ u : State, run (g.length + (encFrame s.cfg f).length + 4) s = .next u ∧
      u.psState = .synced ∧ u.res = some .ok ∧ u.op = none ∧ u.linesAre true false ∧ u.rxq = t ∧ u.txq = s.txq

/-- R187, R195, R196: a READREG whose receiver stands at the start of a DEC passes over noise without `DELIM` and any number of
frames that do not parse or have a foreign opcode, and returns the value of the first Response whose opcode matches, whatever
its status; exactly the bytes up to its closing delimiter are consumed. The schedule gives only the receiver its turns (R189),
cut as log 16 and 30 say. -/
def Obligations.ReadregReturnsAnAlignedReply : Prop :=
  ∀ (s : State) (g : Bytes) (fs : List Bytes) (f t : Bytes) (x : Response) (e : Exchange) (ev : List Event), s.cfg.WF →
    s.op = some .readreg → s.ex = some e → s.dec = some decStart → s.receiving → s.cfg.delim ∉ g →
    (∀ f' ∈ fs, ∀ y, parseResponse s.cfg f' = .ok y → y.opcode ≠ e.cmd.opcode) →
    parseResponse s.cfg f = .ok x → x.opcode = e.cmd.opcode →
    s.rxq = g ++ fs.flatMap (encFrame s.cfg) ++ encFrame s.cfg f ++ t →
    s.events = List.replicate
      (g.length + (fs.map fun f' => (encFrame s.cfg f').length + 1).sum + (encFrame s.cfg f).length + 1) .rx ++ ev →
    ∃ u : State,
      run (g.length + (fs.map fun f' => (encFrame s.cfg f').length + 1).sum + (encFrame s.cfg f).length + 1) s = .next u ∧
      u.res = some (.value x.value) ∧ u.op = none ∧ u.rxq = t ∧ u.txq = s.txq ∧ u.psState = s.psState ∧
      u.ex = none ∧ u.exDone = some true

/-- R186, R187, R209: EXEC ignores any number of frames that do not parse or have a foreign opcode, and returns exactly the
first Response whose opcode matches. The schedule gives only the receiver its turns (R189), cut as log 16 and 30 say. -/
def Obligations.ExecIgnoresForeignFrames : Prop :=
  ∀ (s : State) (fs : List Bytes) (f t : Bytes) (x : Response) (e : Exchange) (ev : List Event), s.cfg.WF →
    s.op = some .exec → s.ex = some e → s.dec = some decStart → s.receiving →
    (∀ f' ∈ fs, ∀ y, parseResponse s.cfg f' = .ok y → y.opcode ≠ e.cmd.opcode) →
    parseResponse s.cfg f = .ok x → x.opcode = e.cmd.opcode →
    s.rxq = fs.flatMap (encFrame s.cfg) ++ encFrame s.cfg f ++ t →
    s.events = List.replicate ((fs.map fun f' => (encFrame s.cfg f').length + 1).sum + (encFrame s.cfg f).length + 1) .rx ++ ev →
    ∃ u : State,
      run ((fs.map fun f' => (encFrame s.cfg f').length + 1).sum + (encFrame s.cfg f).length + 1) s = .next u ∧
      u.res = some (.response x) ∧ u.op = none ∧ u.rxq = t ∧ u.txq = s.txq

/-- R190: with nothing to read, `n` rounds of transmitting and of receive deadlines write `n` copies of the frame and leave the
operation running, for every `n`: no bound, no error. -/
def Obligations.TimeoutNeverEndsAnExchange : Prop :=
  ∀ (s : State) (e : Exchange) (n : Nat) (ev : List Event), exchanging s.op = true → s.ex = some e →
    s.exDone = some false → s.tx = some .test → s.dec = some decStart → s.rxMsg = none → s.canWrite →
    s.events = (List.replicate n [Event.tx, Event.tx, Event.retx, Event.deadline]).flatten ++ ev →
    run (4 * n) s = .next { s with events := ev, txq := s.txq ++ (List.replicate n e.frame).flatten }

/-! ### Rules of the whole machine -/

/-- R41, R182: TXQ grows only by the whole frame of the running transmitter or of a late one, at that transmitter's turn. -/
def Obligations.TxqGrowsByWholeFrames : Prop :=
  ∀ s t : State, step s = .next t →
    t.txq = s.txq ∨ (s.upcoming = .take ∧ t.txq = s.txq.tail) ∨
    (s.upcoming = .tx ∧ ∃ e, s.ex = some e ∧ t.txq = s.txq ++ e.frame) ∨
    (∃ k l, s.upcoming = .late k ∧ s.late[k]? = some l ∧ t.txq = s.txq ++ l.frame)

/-- R43, R45 and 60_exceptions.md R213: an arriving byte is queued at the tail of RXQ, whatever runs; the turn of a running DEC
takes the byte at its head, if there is one; nothing else changes RXQ. -/
def Obligations.RxqIsConsumedOnlyByDec : Prop :=
  ∀ s t : State, step s = .next t →
    (∀ b, s.upcoming = .arrive b → t.rxq = s.rxq ++ [b]) ∧
    (s.upcoming = .rx → s.dec.isSome = true → s.rxMsg = none → t.rxq = s.rxq.tail) ∧
    ((∀ b, s.upcoming ≠ .arrive b) → (s.upcoming = .rx → s.dec = none ∨ s.rxMsg ≠ none) → t.rxq = s.rxq)

/-- R18, R19: `EX.cmd`, `EX.frame` and `EX.done` are written only where an exchange begins (by a request or at the end of
RSTSEQ, with `EX.done` false), where the receiver ends it (`EX.done` becomes true, the rest is gone with the operation, R32),
and where a fatal error ends it (`EX.done` is not written, 60_exceptions.md R206). -/
def Obligations.CompletionSignalHasOneWriter : Prop :=
  ∀ s t : State, step s = .next t →
    (t.ex = s.ex ∧ t.exDone = s.exDone) ∨
    (s.upcoming = .rx ∧ s.ex.isSome = true ∧ t.ex = none ∧ t.exDone = some true ∧ t.op = none) ∨
    ((∃ c, t.ex = some ⟨c, encFrame s.cfg (serialise c)⟩) ∧ t.exDone = some false ∧
      ((∃ c, s.upcoming = .request (.exec c)) ∨ (∃ a, s.upcoming = .request (.readreg a)) ∨ s.upcoming = .settle)) ∨
    (t.psState = .failed ∧ t.ex = none ∧ t.exDone = s.exDone)

/-- R12, R13, R232: the session tag never goes back and `Failed` is never left, an open handle stays, and the parameters never
change. -/
def Obligations.SessionNeverGoesBack : Prop :=
  ∀ s t : State, s.Inv → step s = .next t →
    s.psState.rank ≤ t.psState.rank ∧ (∀ h, s.handle = some h → t.handle = some h) ∧ t.cfg = s.cfg

/-- R206, R221: a step that makes the session fail ends the operation with TransportError and stops every agent, saves and
restores nothing, writes neither `EX.done` nor the streams; only a late transmitter's failure with no operation running leaves
the result already given (the model's reading, log 10, 11). -/
def Obligations.FatalEntryAbortsTheSession : Prop :=
  ∀ s t : State, s.Inv → step s = .next t → s.psState ≠ .failed → t.psState = .failed →
    t.op = none ∧ t.quiet ∧ t.seq = none ∧ t.late = [] ∧ t.handle = s.handle ∧ t.ex = none ∧ t.exDone = s.exDone ∧
    t.rxq = s.rxq ∧ t.txq = s.txq ∧
    (t.res = some (.error .transportError) ∨ (t.res = s.res ∧ s.op = none ∧ ∃ k, s.upcoming = .late k))
end

