-- ==== Sys2Proof/Laws/Decode.lean ====
section
/-! SUPPORT. The small lemmas of the encodings: byte order there and back, and their lengths. -/

namespace Sys2Proof

theorem getLsbD_unle16 (a b : Byte) (i : Nat) :
    (unle16 a b).getLsbD i = if i < 8 then a.getLsbD i else b.getLsbD (i - 8) := by
  unfold unle16
  exact BitVec.getLsbD_append (x := b) (y := a) (i := i)

theorem getLsbD_unle32 (a b c d : Byte) (i : Nat) :
    (unle32 a b c d).getLsbD i =
      if i < 8 then a.getLsbD i else if i < 16 then b.getLsbD (i - 8)
      else if i < 24 then c.getLsbD (i - 16) else d.getLsbD (i - 24) := by
  have h1 : (unle32 a b c d).getLsbD i = if i < 24 then (c ++ (b ++ a)).getLsbD i else d.getLsbD (i - 24) :=
    BitVec.getLsbD_append (x := d) (y := c ++ (b ++ a)) (i := i)
  have h2 : (c ++ (b ++ a)).getLsbD i = if i < 16 then (b ++ a).getLsbD i else c.getLsbD (i - 16) :=
    BitVec.getLsbD_append (x := c) (y := b ++ a) (i := i)
  have h3 : (b ++ a).getLsbD i = if i < 8 then a.getLsbD i else b.getLsbD (i - 8) :=
    BitVec.getLsbD_append (x := b) (y := a) (i := i)
  rw [h1, h2, h3]
  split_ifs <;> first | rfl | omega

theorem le16_unle16 (a b : Byte) : le16 (unle16 a b) = [a, b] := by
  have h0 : (unle16 a b).extractLsb' 0 8 = a := by
    refine BitVec.eq_of_getLsbD_eq fun i hi => ?_
    simp [getLsbD_unle16, hi]
  have h1 : (unle16 a b).extractLsb' 8 8 = b := by
    refine BitVec.eq_of_getLsbD_eq fun i hi => ?_
    simp [getLsbD_unle16, hi]
  rw [le16, h0, h1]

theorem unle16_le16 (v : Half) : unle16 (v.extractLsb' 0 8) (v.extractLsb' 8 8) = v := by
  refine BitVec.eq_of_getLsbD_eq fun i hi => ?_
  rw [getLsbD_unle16]
  split_ifs with h
  · simp [h]
  · have h8 : i - 8 < 8 := by omega
    have h8' : 8 + (i - 8) = i := by omega
    simp [h8, h8']

theorem le32_unle32 (a b c d : Byte) : le32 (unle32 a b c d) = [a, b, c, d] := by
  have h0 : (unle32 a b c d).extractLsb' 0 8 = a := by
    refine BitVec.eq_of_getLsbD_eq fun i hi => ?_
    simp [getLsbD_unle32, hi]
  have h1 : (unle32 a b c d).extractLsb' 8 8 = b := by
    refine BitVec.eq_of_getLsbD_eq fun i hi => ?_
    have : 8 + i < 16 := by omega
    simp [getLsbD_unle32, hi, this]
  have h2 : (unle32 a b c d).extractLsb' 16 8 = c := by
    refine BitVec.eq_of_getLsbD_eq fun i hi => ?_
    have h : 16 + i < 24 := by omega
    have h' : ¬ 16 + i < 8 := by omega
    simp [getLsbD_unle32, hi, h, h']
  have h3 : (unle32 a b c d).extractLsb' 24 8 = d := by
    refine BitVec.eq_of_getLsbD_eq fun i hi => ?_
    have h : ¬ 24 + i < 16 := by omega
    have h' : ¬ 24 + i < 8 := by omega
    simp [getLsbD_unle32, hi, h, h']
  rw [le32, h0, h1, h2, h3]

theorem unle32_le32 (v : Word) :
    unle32 (v.extractLsb' 0 8) (v.extractLsb' 8 8) (v.extractLsb' 16 8) (v.extractLsb' 24 8) = v := by
  refine BitVec.eq_of_getLsbD_eq fun i hi => ?_
  rw [getLsbD_unle32]
  split_ifs with h1 h2 h3
  · simp [h1]
  · have h : i - 8 < 8 := by omega
    have h' : 8 + (i - 8) = i := by omega
    simp [h, h']
  · have h : i - 16 < 8 := by omega
    have h' : 16 + (i - 16) = i := by omega
    simp [h, h']
  · have h : i - 24 < 8 := by omega
    have h' : 24 + (i - 24) = i := by omega
    simp [h, h']

theorem length_le16 (v : Half) : (le16 v).length = 2 := rfl

theorem length_le32 (v : Word) : (le32 v).length = 4 := rfl

theorem length_encodeRequest (op : Byte) (ck : Word) (pl : Bytes) : (encodeRequest op ck pl).length = 8 + pl.length := by
  simp [encodeRequest, length_le16, length_le32]; omega

theorem length_encodeResponse (op : Byte) (len : Half) (v : Quad) (rem st : Bytes) :
    (encodeResponse op len v rem st).length = 8 + rem.length + st.length := by
  simp [encodeResponse, length_le16, Quad.toBytes]; omega

/-- A request's bytes are `SER` of its Command. -/
theorem encodeRequest_eq_serialise (op : Byte) (ck : Word) (pl : Bytes) :
    encodeRequest op ck pl = Machine.serialise ⟨op, ck, pl⟩ := rfl

end Sys2Proof
end

