-- ==== Sys2Proof/Laws/State.lean ====
section
/-! SUPPORT. What each named update of the state does to each field: true by unfolding the update once, so that no later
proof unfolds it. -/

namespace Sys2Proof.Machine

/-! ### State.taken -/

@[simp] theorem State.taken_cfg (s : State) : s.taken.cfg = s.cfg := rfl
@[simp] theorem State.taken_psState (s : State) : s.taken.psState = s.psState := rfl
@[simp] theorem State.taken_handle (s : State) : s.taken.handle = s.handle := rfl
@[simp] theorem State.taken_baud (s : State) : s.taken.baud = s.baud := rfl
@[simp] theorem State.taken_lcDtr (s : State) : s.taken.lcDtr = s.lcDtr := rfl
@[simp] theorem State.taken_lcRts (s : State) : s.taken.lcRts = s.lcRts := rfl
@[simp] theorem State.taken_pinDtr (s : State) : s.taken.pinDtr = s.pinDtr := rfl
@[simp] theorem State.taken_pinRts (s : State) : s.taken.pinRts = s.pinRts := rfl
@[simp] theorem State.taken_ex (s : State) : s.taken.ex = s.ex := rfl
@[simp] theorem State.taken_exDone (s : State) : s.taken.exDone = s.exDone := rfl
@[simp] theorem State.taken_dec (s : State) : s.taken.dec = s.dec := rfl
@[simp] theorem State.taken_seq (s : State) : s.taken.seq = s.seq := rfl
@[simp] theorem State.taken_op (s : State) : s.taken.op = s.op := rfl
@[simp] theorem State.taken_rxMsg (s : State) : s.taken.rxMsg = s.rxMsg := rfl
@[simp] theorem State.taken_tx (s : State) : s.taken.tx = s.tx := rfl
@[simp] theorem State.taken_late (s : State) : s.taken.late = s.late := rfl
@[simp] theorem State.taken_rxq (s : State) : s.taken.rxq = s.rxq := rfl
@[simp] theorem State.taken_txq (s : State) : s.taken.txq = s.txq := rfl
@[simp] theorem State.taken_res (s : State) : s.taken.res = s.res := rfl
@[simp] theorem State.taken_freeTick (s : State) : s.taken.freeTick = s.freeTick := rfl

/-- With an event listed, that is the next one. -/
theorem upcoming_cons {s : State} {e : Event} {ev : List Event} (h : s.events = e :: ev) : s.upcoming = e := by
  simp [State.upcoming, h]

theorem taken_cons {s : State} {e : Event} {ev : List Event} (h : s.events = e :: ev) : s.taken = { s with events := ev } := by
  simp [State.taken, h]

/-! ### State.finish -/

@[simp] theorem State.finish_cfg (r : Result) (s : State) : (s.finish r).cfg = s.cfg := rfl
@[simp] theorem State.finish_psState (r : Result) (s : State) : (s.finish r).psState = s.psState := rfl
@[simp] theorem State.finish_handle (r : Result) (s : State) : (s.finish r).handle = s.handle := rfl
@[simp] theorem State.finish_baud (r : Result) (s : State) : (s.finish r).baud = s.baud := rfl
@[simp] theorem State.finish_lcDtr (r : Result) (s : State) : (s.finish r).lcDtr = s.lcDtr := rfl
@[simp] theorem State.finish_lcRts (r : Result) (s : State) : (s.finish r).lcRts = s.lcRts := rfl
@[simp] theorem State.finish_pinDtr (r : Result) (s : State) : (s.finish r).pinDtr = s.pinDtr := rfl
@[simp] theorem State.finish_pinRts (r : Result) (s : State) : (s.finish r).pinRts = s.pinRts := rfl
@[simp] theorem State.finish_ex (r : Result) (s : State) : (s.finish r).ex = s.ex := rfl
@[simp] theorem State.finish_exDone (r : Result) (s : State) : (s.finish r).exDone = s.exDone := rfl
@[simp] theorem State.finish_dec (r : Result) (s : State) : (s.finish r).dec = s.dec := rfl
@[simp] theorem State.finish_seq (r : Result) (s : State) : (s.finish r).seq = s.seq := rfl
@[simp] theorem State.finish_op (r : Result) (s : State) : (s.finish r).op = none := rfl
@[simp] theorem State.finish_rxMsg (r : Result) (s : State) : (s.finish r).rxMsg = s.rxMsg := rfl
@[simp] theorem State.finish_tx (r : Result) (s : State) : (s.finish r).tx = s.tx := rfl
@[simp] theorem State.finish_late (r : Result) (s : State) : (s.finish r).late = s.late := rfl
@[simp] theorem State.finish_rxq (r : Result) (s : State) : (s.finish r).rxq = s.rxq := rfl
@[simp] theorem State.finish_txq (r : Result) (s : State) : (s.finish r).txq = s.txq := rfl
@[simp] theorem State.finish_res (r : Result) (s : State) : (s.finish r).res = some r := rfl
@[simp] theorem State.finish_events (r : Result) (s : State) : (s.finish r).events = s.events := rfl
@[simp] theorem State.finish_eventTick (r : Result) (s : State) : (s.finish r).eventTick = s.eventTick := rfl
@[simp] theorem State.finish_freeTick (r : Result) (s : State) : (s.finish r).freeTick = s.freeTick := rfl

/-! ### State.abort -/

@[simp] theorem State.abort_cfg (s : State) : s.abort.cfg = s.cfg := rfl
@[simp] theorem State.abort_psState (s : State) : s.abort.psState = .failed := rfl
@[simp] theorem State.abort_handle (s : State) : s.abort.handle = s.handle := rfl
@[simp] theorem State.abort_baud (s : State) : s.abort.baud = s.baud := rfl
@[simp] theorem State.abort_lcDtr (s : State) : s.abort.lcDtr = s.lcDtr := rfl
@[simp] theorem State.abort_lcRts (s : State) : s.abort.lcRts = s.lcRts := rfl
@[simp] theorem State.abort_pinDtr (s : State) : s.abort.pinDtr = s.pinDtr := rfl
@[simp] theorem State.abort_pinRts (s : State) : s.abort.pinRts = s.pinRts := rfl
@[simp] theorem State.abort_ex (s : State) : s.abort.ex = none := rfl
@[simp] theorem State.abort_exDone (s : State) : s.abort.exDone = s.exDone := rfl
@[simp] theorem State.abort_dec (s : State) : s.abort.dec = none := rfl
@[simp] theorem State.abort_seq (s : State) : s.abort.seq = none := rfl
@[simp] theorem State.abort_op (s : State) : s.abort.op = none := rfl
@[simp] theorem State.abort_rxMsg (s : State) : s.abort.rxMsg = none := rfl
@[simp] theorem State.abort_tx (s : State) : s.abort.tx = none := rfl
@[simp] theorem State.abort_late (s : State) : s.abort.late = [] := rfl
@[simp] theorem State.abort_rxq (s : State) : s.abort.rxq = s.rxq := rfl
@[simp] theorem State.abort_txq (s : State) : s.abort.txq = s.txq := rfl
@[simp] theorem State.abort_res (s : State) : s.abort.res = s.res := rfl
@[simp] theorem State.abort_events (s : State) : s.abort.events = s.events := rfl
@[simp] theorem State.abort_eventTick (s : State) : s.abort.eventTick = s.eventTick := rfl
@[simp] theorem State.abort_freeTick (s : State) : s.abort.freeTick = s.freeTick := rfl

/-! ### State.transportError -/

@[simp] theorem State.transportError_cfg (s : State) : s.transportError.cfg = s.cfg := rfl
@[simp] theorem State.transportError_psState (s : State) : s.transportError.psState = .failed := rfl
@[simp] theorem State.transportError_handle (s : State) : s.transportError.handle = s.handle := rfl
@[simp] theorem State.transportError_baud (s : State) : s.transportError.baud = s.baud := rfl
@[simp] theorem State.transportError_lcDtr (s : State) : s.transportError.lcDtr = s.lcDtr := rfl
@[simp] theorem State.transportError_lcRts (s : State) : s.transportError.lcRts = s.lcRts := rfl
@[simp] theorem State.transportError_pinDtr (s : State) : s.transportError.pinDtr = s.pinDtr := rfl
@[simp] theorem State.transportError_pinRts (s : State) : s.transportError.pinRts = s.pinRts := rfl
@[simp] theorem State.transportError_ex (s : State) : s.transportError.ex = none := rfl
@[simp] theorem State.transportError_exDone (s : State) : s.transportError.exDone = s.exDone := rfl
@[simp] theorem State.transportError_dec (s : State) : s.transportError.dec = none := rfl
@[simp] theorem State.transportError_seq (s : State) : s.transportError.seq = none := rfl
@[simp] theorem State.transportError_op (s : State) : s.transportError.op = none := rfl
@[simp] theorem State.transportError_rxMsg (s : State) : s.transportError.rxMsg = none := rfl
@[simp] theorem State.transportError_tx (s : State) : s.transportError.tx = none := rfl
@[simp] theorem State.transportError_late (s : State) : s.transportError.late = [] := rfl
@[simp] theorem State.transportError_rxq (s : State) : s.transportError.rxq = s.rxq := rfl
@[simp] theorem State.transportError_txq (s : State) : s.transportError.txq = s.txq := rfl
@[simp] theorem State.transportError_res (s : State) : s.transportError.res = some (.error .transportError) := rfl
@[simp] theorem State.transportError_events (s : State) : s.transportError.events = s.events := rfl
@[simp] theorem State.transportError_eventTick (s : State) : s.transportError.eventTick = s.eventTick := rfl
@[simp] theorem State.transportError_freeTick (s : State) : s.transportError.freeTick = s.freeTick := rfl

/-! ### State.freeLines -/

@[simp] theorem State.freeLines_cfg (s : State) : s.freeLines.cfg = s.cfg := rfl
@[simp] theorem State.freeLines_psState (s : State) : s.freeLines.psState = s.psState := rfl
@[simp] theorem State.freeLines_handle (s : State) : s.freeLines.handle = s.handle := rfl
@[simp] theorem State.freeLines_baud (s : State) : s.freeLines.baud = s.baud := rfl
@[simp] theorem State.freeLines_lcDtr (s : State) : s.freeLines.lcDtr = Config.freeBit s.freeTick := rfl
@[simp] theorem State.freeLines_lcRts (s : State) : s.freeLines.lcRts = Config.freeBit (s.freeTick + 1) := rfl
@[simp] theorem State.freeLines_pinDtr (s : State) : s.freeLines.pinDtr = Config.freeBit (s.freeTick + 2) := rfl
@[simp] theorem State.freeLines_pinRts (s : State) : s.freeLines.pinRts = Config.freeBit (s.freeTick + 3) := rfl
@[simp] theorem State.freeLines_ex (s : State) : s.freeLines.ex = s.ex := rfl
@[simp] theorem State.freeLines_exDone (s : State) : s.freeLines.exDone = s.exDone := rfl
@[simp] theorem State.freeLines_dec (s : State) : s.freeLines.dec = s.dec := rfl
@[simp] theorem State.freeLines_seq (s : State) : s.freeLines.seq = s.seq := rfl
@[simp] theorem State.freeLines_op (s : State) : s.freeLines.op = s.op := rfl
@[simp] theorem State.freeLines_rxMsg (s : State) : s.freeLines.rxMsg = s.rxMsg := rfl
@[simp] theorem State.freeLines_tx (s : State) : s.freeLines.tx = s.tx := rfl
@[simp] theorem State.freeLines_late (s : State) : s.freeLines.late = s.late := rfl
@[simp] theorem State.freeLines_rxq (s : State) : s.freeLines.rxq = s.rxq := rfl
@[simp] theorem State.freeLines_txq (s : State) : s.freeLines.txq = s.txq := rfl
@[simp] theorem State.freeLines_res (s : State) : s.freeLines.res = s.res := rfl
@[simp] theorem State.freeLines_events (s : State) : s.freeLines.events = s.events := rfl
@[simp] theorem State.freeLines_eventTick (s : State) : s.freeLines.eventTick = s.eventTick := rfl
@[simp] theorem State.freeLines_freeTick (s : State) : s.freeLines.freeTick = s.freeTick + 4 := rfl

/-! ### State.startExchange -/

@[simp] theorem State.startExchange_cfg (c : Command) (s : State) : (s.startExchange c).cfg = s.cfg := rfl
@[simp] theorem State.startExchange_psState (c : Command) (s : State) : (s.startExchange c).psState = s.psState := rfl
@[simp] theorem State.startExchange_handle (c : Command) (s : State) : (s.startExchange c).handle = s.handle := rfl
@[simp] theorem State.startExchange_baud (c : Command) (s : State) : (s.startExchange c).baud = s.baud := rfl
@[simp] theorem State.startExchange_lcDtr (c : Command) (s : State) : (s.startExchange c).lcDtr = s.lcDtr := rfl
@[simp] theorem State.startExchange_lcRts (c : Command) (s : State) : (s.startExchange c).lcRts = s.lcRts := rfl
@[simp] theorem State.startExchange_pinDtr (c : Command) (s : State) : (s.startExchange c).pinDtr = s.pinDtr := rfl
@[simp] theorem State.startExchange_pinRts (c : Command) (s : State) : (s.startExchange c).pinRts = s.pinRts := rfl
@[simp] theorem State.startExchange_ex (c : Command) (s : State) : (s.startExchange c).ex = some (newExchange s.cfg c) := rfl
@[simp] theorem State.startExchange_exDone (c : Command) (s : State) : (s.startExchange c).exDone = some false := rfl
@[simp] theorem State.startExchange_dec (c : Command) (s : State) : (s.startExchange c).dec = some decStart := rfl
@[simp] theorem State.startExchange_seq (c : Command) (s : State) : (s.startExchange c).seq = s.seq := rfl
@[simp] theorem State.startExchange_op (c : Command) (s : State) : (s.startExchange c).op = s.op := rfl
@[simp] theorem State.startExchange_rxMsg (c : Command) (s : State) : (s.startExchange c).rxMsg = none := rfl
@[simp] theorem State.startExchange_tx (c : Command) (s : State) : (s.startExchange c).tx = some .test := rfl
@[simp] theorem State.startExchange_late (c : Command) (s : State) : (s.startExchange c).late = s.late := rfl
@[simp] theorem State.startExchange_rxq (c : Command) (s : State) : (s.startExchange c).rxq = s.rxq := rfl
@[simp] theorem State.startExchange_txq (c : Command) (s : State) : (s.startExchange c).txq = s.txq := rfl
@[simp] theorem State.startExchange_res (c : Command) (s : State) : (s.startExchange c).res = none := rfl
@[simp] theorem State.startExchange_events (c : Command) (s : State) : (s.startExchange c).events = s.events := rfl
@[simp] theorem State.startExchange_eventTick (c : Command) (s : State) : (s.startExchange c).eventTick = s.eventTick := rfl
@[simp] theorem State.startExchange_freeTick (c : Command) (s : State) : (s.startExchange c).freeTick = s.freeTick := rfl

/-! ### State.nextAttempt -/

@[simp] theorem State.nextAttempt_cfg (s : State) : s.nextAttempt.cfg = s.cfg := rfl
@[simp] theorem State.nextAttempt_psState (s : State) : s.nextAttempt.psState = s.psState := rfl
@[simp] theorem State.nextAttempt_handle (s : State) : s.nextAttempt.handle = s.handle := rfl
@[simp] theorem State.nextAttempt_baud (s : State) : s.nextAttempt.baud = s.baud := rfl
@[simp] theorem State.nextAttempt_lcDtr (s : State) : s.nextAttempt.lcDtr = s.lcDtr := rfl
@[simp] theorem State.nextAttempt_lcRts (s : State) : s.nextAttempt.lcRts = s.lcRts := rfl
@[simp] theorem State.nextAttempt_pinDtr (s : State) : s.nextAttempt.pinDtr = s.pinDtr := rfl
@[simp] theorem State.nextAttempt_pinRts (s : State) : s.nextAttempt.pinRts = s.pinRts := rfl
@[simp] theorem State.nextAttempt_ex (s : State) : s.nextAttempt.ex = s.ex := rfl
@[simp] theorem State.nextAttempt_exDone (s : State) : s.nextAttempt.exDone = s.exDone := rfl
@[simp] theorem State.nextAttempt_dec (s : State) : s.nextAttempt.dec = some decStart := rfl
@[simp] theorem State.nextAttempt_seq (s : State) : s.nextAttempt.seq = s.seq := rfl
@[simp] theorem State.nextAttempt_op (s : State) : s.nextAttempt.op = s.op := rfl
@[simp] theorem State.nextAttempt_rxMsg (s : State) : s.nextAttempt.rxMsg = none := rfl
@[simp] theorem State.nextAttempt_tx (s : State) : s.nextAttempt.tx = s.tx := rfl
@[simp] theorem State.nextAttempt_late (s : State) : s.nextAttempt.late = s.late := rfl
@[simp] theorem State.nextAttempt_rxq (s : State) : s.nextAttempt.rxq = s.rxq := rfl
@[simp] theorem State.nextAttempt_txq (s : State) : s.nextAttempt.txq = s.txq := rfl
@[simp] theorem State.nextAttempt_res (s : State) : s.nextAttempt.res = s.res := rfl
@[simp] theorem State.nextAttempt_events (s : State) : s.nextAttempt.events = s.events := rfl
@[simp] theorem State.nextAttempt_eventTick (s : State) : s.nextAttempt.eventTick = s.eventTick := rfl
@[simp] theorem State.nextAttempt_freeTick (s : State) : s.nextAttempt.freeTick = s.freeTick := rfl

/-! ### State.endExchange -/

@[simp] theorem State.endExchange_cfg (e : Exchange) (s : State) : (s.endExchange e).cfg = s.cfg := rfl
@[simp] theorem State.endExchange_psState (e : Exchange) (s : State) : (s.endExchange e).psState = s.psState := rfl
@[simp] theorem State.endExchange_handle (e : Exchange) (s : State) : (s.endExchange e).handle = s.handle := rfl
@[simp] theorem State.endExchange_baud (e : Exchange) (s : State) : (s.endExchange e).baud = s.baud := rfl
@[simp] theorem State.endExchange_lcDtr (e : Exchange) (s : State) : (s.endExchange e).lcDtr = s.lcDtr := rfl
@[simp] theorem State.endExchange_lcRts (e : Exchange) (s : State) : (s.endExchange e).lcRts = s.lcRts := rfl
@[simp] theorem State.endExchange_pinDtr (e : Exchange) (s : State) : (s.endExchange e).pinDtr = s.pinDtr := rfl
@[simp] theorem State.endExchange_pinRts (e : Exchange) (s : State) : (s.endExchange e).pinRts = s.pinRts := rfl
@[simp] theorem State.endExchange_ex (e : Exchange) (s : State) : (s.endExchange e).ex = none := rfl
@[simp] theorem State.endExchange_exDone (e : Exchange) (s : State) : (s.endExchange e).exDone = some true := rfl
@[simp] theorem State.endExchange_dec (e : Exchange) (s : State) : (s.endExchange e).dec = none := rfl
@[simp] theorem State.endExchange_seq (e : Exchange) (s : State) : (s.endExchange e).seq = s.seq := rfl
@[simp] theorem State.endExchange_op (e : Exchange) (s : State) : (s.endExchange e).op = s.op := rfl
@[simp] theorem State.endExchange_rxMsg (e : Exchange) (s : State) : (s.endExchange e).rxMsg = none := rfl
@[simp] theorem State.endExchange_tx (e : Exchange) (s : State) : (s.endExchange e).tx = none := rfl
@[simp] theorem State.endExchange_late (e : Exchange) (s : State) : (s.endExchange e).late = s.late ++ lateOf e s.tx := rfl
@[simp] theorem State.endExchange_rxq (e : Exchange) (s : State) : (s.endExchange e).rxq = s.rxq := rfl
@[simp] theorem State.endExchange_txq (e : Exchange) (s : State) : (s.endExchange e).txq = s.txq := rfl
@[simp] theorem State.endExchange_res (e : Exchange) (s : State) : (s.endExchange e).res = s.res := rfl
@[simp] theorem State.endExchange_events (e : Exchange) (s : State) : (s.endExchange e).events = s.events := rfl
@[simp] theorem State.endExchange_eventTick (e : Exchange) (s : State) : (s.endExchange e).eventTick = s.eventTick := rfl
@[simp] theorem State.endExchange_freeTick (e : Exchange) (s : State) : (s.endExchange e).freeTick = s.freeTick := rfl

/-! ### State.deliver and State.agentError: the fields they keep -/

@[simp] theorem State.deliver_cfg (x : Response) (s : State) : (s.deliver x).cfg = s.cfg := by
  unfold State.deliver; split <;> rfl
@[simp] theorem State.deliver_handle (x : Response) (s : State) : (s.deliver x).handle = s.handle := by
  unfold State.deliver; split <;> rfl
@[simp] theorem State.deliver_baud (x : Response) (s : State) : (s.deliver x).baud = s.baud := by
  unfold State.deliver; split <;> rfl
@[simp] theorem State.deliver_lcDtr (x : Response) (s : State) : (s.deliver x).lcDtr = s.lcDtr := by
  unfold State.deliver; split <;> rfl
@[simp] theorem State.deliver_lcRts (x : Response) (s : State) : (s.deliver x).lcRts = s.lcRts := by
  unfold State.deliver; split <;> rfl
@[simp] theorem State.deliver_pinDtr (x : Response) (s : State) : (s.deliver x).pinDtr = s.pinDtr := by
  unfold State.deliver; split <;> rfl
@[simp] theorem State.deliver_pinRts (x : Response) (s : State) : (s.deliver x).pinRts = s.pinRts := by
  unfold State.deliver; split <;> rfl
@[simp] theorem State.deliver_ex (x : Response) (s : State) : (s.deliver x).ex = s.ex := by
  unfold State.deliver; split <;> rfl
@[simp] theorem State.deliver_exDone (x : Response) (s : State) : (s.deliver x).exDone = s.exDone := by
  unfold State.deliver; split <;> rfl
@[simp] theorem State.deliver_dec (x : Response) (s : State) : (s.deliver x).dec = s.dec := by
  unfold State.deliver; split <;> rfl
@[simp] theorem State.deliver_seq (x : Response) (s : State) : (s.deliver x).seq = s.seq := by
  unfold State.deliver; split <;> rfl
@[simp] theorem State.deliver_rxMsg (x : Response) (s : State) : (s.deliver x).rxMsg = s.rxMsg := by
  unfold State.deliver; split <;> rfl
@[simp] theorem State.deliver_tx (x : Response) (s : State) : (s.deliver x).tx = s.tx := by
  unfold State.deliver; split <;> rfl
@[simp] theorem State.deliver_late (x : Response) (s : State) : (s.deliver x).late = s.late := by
  unfold State.deliver; split <;> rfl
@[simp] theorem State.deliver_rxq (x : Response) (s : State) : (s.deliver x).rxq = s.rxq := by
  unfold State.deliver; split <;> rfl
@[simp] theorem State.deliver_txq (x : Response) (s : State) : (s.deliver x).txq = s.txq := by
  unfold State.deliver; split <;> rfl
@[simp] theorem State.deliver_events (x : Response) (s : State) : (s.deliver x).events = s.events := by
  unfold State.deliver; split <;> rfl
@[simp] theorem State.deliver_eventTick (x : Response) (s : State) : (s.deliver x).eventTick = s.eventTick := by
  unfold State.deliver; split <;> rfl
@[simp] theorem State.deliver_freeTick (x : Response) (s : State) : (s.deliver x).freeTick = s.freeTick := by
  unfold State.deliver; split <;> rfl
@[simp] theorem State.deliver_op (x : Response) (s : State) : (s.deliver x).op = none := by
  unfold State.deliver; split <;> rfl
@[simp] theorem State.agentError_cfg (s : State) : s.agentError.cfg = s.cfg := by
  unfold State.agentError; split <;> rfl
@[simp] theorem State.agentError_psState (s : State) : s.agentError.psState = .failed := by
  unfold State.agentError; split <;> rfl
@[simp] theorem State.agentError_handle (s : State) : s.agentError.handle = s.handle := by
  unfold State.agentError; split <;> rfl
@[simp] theorem State.agentError_baud (s : State) : s.agentError.baud = s.baud := by
  unfold State.agentError; split <;> rfl
@[simp] theorem State.agentError_lcDtr (s : State) : s.agentError.lcDtr = s.lcDtr := by
  unfold State.agentError; split <;> rfl
@[simp] theorem State.agentError_lcRts (s : State) : s.agentError.lcRts = s.lcRts := by
  unfold State.agentError; split <;> rfl
@[simp] theorem State.agentError_pinDtr (s : State) : s.agentError.pinDtr = s.pinDtr := by
  unfold State.agentError; split <;> rfl
@[simp] theorem State.agentError_pinRts (s : State) : s.agentError.pinRts = s.pinRts := by
  unfold State.agentError; split <;> rfl
@[simp] theorem State.agentError_ex (s : State) : s.agentError.ex = none := by
  unfold State.agentError; split <;> rfl
@[simp] theorem State.agentError_exDone (s : State) : s.agentError.exDone = s.exDone := by
  unfold State.agentError; split <;> rfl
@[simp] theorem State.agentError_dec (s : State) : s.agentError.dec = none := by
  unfold State.agentError; split <;> rfl
@[simp] theorem State.agentError_seq (s : State) : s.agentError.seq = none := by
  unfold State.agentError; split <;> rfl
@[simp] theorem State.agentError_op (s : State) : s.agentError.op = none := by
  unfold State.agentError; split <;> rfl
@[simp] theorem State.agentError_rxMsg (s : State) : s.agentError.rxMsg = none := by
  unfold State.agentError; split <;> rfl
@[simp] theorem State.agentError_tx (s : State) : s.agentError.tx = none := by
  unfold State.agentError; split <;> rfl
@[simp] theorem State.agentError_late (s : State) : s.agentError.late = [] := by
  unfold State.agentError; split <;> rfl
@[simp] theorem State.agentError_rxq (s : State) : s.agentError.rxq = s.rxq := by
  unfold State.agentError; split <;> rfl
@[simp] theorem State.agentError_txq (s : State) : s.agentError.txq = s.txq := by
  unfold State.agentError; split <;> rfl
@[simp] theorem State.agentError_events (s : State) : s.agentError.events = s.events := by
  unfold State.agentError; split <;> rfl
@[simp] theorem State.agentError_eventTick (s : State) : s.agentError.eventTick = s.eventTick := by
  unfold State.agentError; split <;> rfl
@[simp] theorem State.agentError_freeTick (s : State) : s.agentError.freeTick = s.freeTick := by
  unfold State.agentError; split <;> rfl

end Sys2Proof.Machine
end

