-- ==== Sys2Proof/Laws/Ops.lean ====
section
/-! SUPPORT. One lemma per shared operation that says everything it can do: the preconditions open to exactly the states they
name, and an operation that answers a next state has done one of the things listed. Later proofs cite these and do not unfold
the operation. -/

namespace Sys2Proof.Machine

/-! ### Preconditions -/

theorem whenIdle_of_idle {s : State} {k : State → Out} (h : s.idle) : whenIdle s k = k s := by
  simp [whenIdle, h.1, h.2]

theorem whenIdle_next {s t : State} {k : State → Out} : whenIdle s k = .next t ↔ s.idle ∧ k s = .next t := by
  by_cases hf : s.psState = .failed <;> rcases ho : s.op with _ | o <;> simp [whenIdle, State.idle, hf, ho]

theorem whenIdle_fault {s : State} {r : Fault} {k : State → Out} :
    whenIdle s k = .fault r ↔ s.idle ∧ k s = .fault r := by
  by_cases hf : s.psState = .failed <;> rcases ho : s.op with _ | o <;> simp [whenIdle, State.idle, hf, ho]

theorem whenAlive_next {s t : State} {k : State → Out} :
    whenAlive s k = .next t ↔ s.psState ≠ .failed ∧ k s = .next t := by
  by_cases hf : s.psState = .failed <;> simp [whenAlive, hf]

theorem whenAlive_fault {s : State} {r : Fault} {k : State → Out} :
    whenAlive s k = .fault r ↔ s.psState ≠ .failed ∧ k s = .fault r := by
  by_cases hf : s.psState = .failed <;> simp [whenAlive, hf]

theorem whenState_next {p : SessionState} {s t : State} {k : State → Out} :
    whenState p s k = .next t ↔ s.psState = p ∧ k s = .next t := by
  by_cases h : s.psState = p <;> simp [whenState, h]

theorem whenState_fault {p : SessionState} {s : State} {r : Fault} {k : State → Out} :
    whenState p s k = .fault r ↔ s.psState = p ∧ k s = .fault r := by
  by_cases h : s.psState = p <;> simp [whenState, h]

theorem whenOpen_next {s t : State} {k : State → Out} : whenOpen s k = .next t ↔ s.isOpen ∧ k s = .next t := by
  unfold whenOpen State.isOpen; split <;> simp_all

theorem whenOpen_fault {s : State} {r : Fault} {k : State → Out} :
    whenOpen s k = .fault r ↔ s.isOpen ∧ k s = .fault r := by
  unfold whenOpen State.isOpen; split <;> simp_all

theorem whenHandle_next {s t : State} {k : State → Out} :
    whenHandle s k = .next t ↔ s.handle.isSome ∧ k s = .next t := by
  unfold whenHandle; split <;> simp_all

theorem whenHandle_fault {s : State} {r : Fault} {k : State → Out} :
    whenHandle s k = .fault r ↔ (s.handle = none ∧ r = .noTransport) ∨ (s.handle.isSome ∧ k s = .fault r) := by
  rcases hh : s.handle with _ | h <;> simp [whenHandle, hh, @eq_comm _ r]

theorem whenCommand_next {c : Command} {s t : State} {k : State → Out} :
    whenCommand c s k = .next t ↔ c.WF ∧ k s = .next t := by
  unfold whenCommand; split <;> simp_all

theorem whenCommand_fault {c : Command} {s : State} {r : Fault} {k : State → Out} :
    whenCommand c s k = .fault r ↔ c.WF ∧ k s = .fault r := by
  unfold whenCommand; split <;> simp_all

/-! ### The answer to a transport call -/

theorem transportCall_ok {f : Event} {s : State} (h : ¬ s.callFails f) : transportCall f s = .ok s := if_neg h

theorem transportCall_fails {f : Event} {s : State} (h : s.callFails f) : transportCall f s = .error s.taken := if_pos h

/-! ### Lines -/

/-- A state after SETLINES has failed: the failure has been taken and the four lines are free values. -/
def State.lineFailed (s : State) : State := s.taken.freeLines

/-- A state after SETLINES has succeeded. -/
def State.linesSet (d r : Bool) (s : State) : State :=
  { s with pinDtr := d, pinRts := r, lcDtr := d, lcRts := r }

theorem setLines_eq (d r : Bool) (s : State) :
    setLines d r s = if s.callFails .failLine then .error s.lineFailed else .ok (s.linesSet d r) := by
  by_cases h : s.upcoming = .failLine <;>
    simp [setLines, applyLines, transportCall, State.callFails, h, State.lineFailed, State.linesSet]

theorem setLines_ok {d r : Bool} {s : State} (h : ¬ s.callFails .failLine) : setLines d r s = .ok (s.linesSet d r) := by
  rw [setLines_eq, if_neg h]

theorem setLines_fails {d r : Bool} {s : State} (h : s.callFails .failLine) : setLines d r s = .error s.lineFailed := by
  rw [setLines_eq, if_pos h]

/-- What the first step of RSTSEQ can do. -/
theorem startReset_cases (o : Running) (s : State) :
    (s.callFails .failLine ∧
      startReset o s = .next (State.transportError
        (State.lineFailed { s with op := some o, res := none, seq := some .s0 }))) ∨
    (¬ s.callFails .failLine ∧
      startReset o s = .next { s.linesSet false true with op := some o, res := none, seq := some .s1 }) := by
  rw [startReset, setLines_eq]
  by_cases h : State.callFails .failLine { s with op := some o, res := none, seq := some .s0 }
  · exact .inl ⟨h, by rw [if_pos h]⟩
  · exact .inr ⟨h, by rw [if_neg h]; rfl⟩

theorem startReset_ok {o : Running} {s : State} (h : ¬ s.callFails .failLine) :
    startReset o s = .next { s.linesSet false true with op := some o, res := none, seq := some .s1 } :=
  ((startReset_cases o s).resolve_left fun hf => h hf.1).2

theorem startReset_fails {o : Running} {s : State} (h : s.callFails .failLine) :
    startReset o s = .next (State.transportError
      (State.lineFailed { s with op := some o, res := none, seq := some .s0 })) :=
  ((startReset_cases o s).resolve_right fun hf => hf.1 h).2

/-! ### The transmit stream -/

/-- TxWrite appends its frame to TXQ or takes a transmitter's transport error; nothing else. -/
theorem txWrite_next {f : Bytes} {s t : State} :
    txWrite f s = .next t ↔ s.psState ≠ .failed ∧ s.handle.isSome ∧
      ((s.callFails .failWrite ∧ t = s.taken.agentError) ∨
       (¬ s.callFails .failWrite ∧ t = { s with txq := s.txq ++ f })) := by
  rw [txWrite, whenAlive_next, whenHandle_next]
  by_cases h : s.upcoming = .failWrite <;> simp [transportCall, State.callFails, h, @eq_comm _ t]

theorem txWrite_ok {f : Bytes} {s : State} (h : s.canWrite) (hf : ¬ s.callFails .failWrite) :
    txWrite f s = .next { s with txq := s.txq ++ f } :=
  txWrite_next.mpr ⟨h.1, h.2, .inr ⟨hf, rfl⟩⟩

theorem txWrite_fault {f : Bytes} {s : State} {r : Fault} :
    txWrite f s = .fault r ↔ s.psState ≠ .failed ∧ s.handle = none ∧ r = .noTransport := by
  by_cases h : s.upcoming = .failWrite <;> simp [txWrite, transportCall, whenAlive_fault, whenHandle_fault, h]

/-! ### The receiver and the decoder's returns -/

/-- In an EXEC the receiver goes on or ends the exchange; outside one, a payload is a PARSE requested directly. -/
theorem receive_next {f : Bytes} {s t : State} (h : receive f s = .next t) :
    (exchanging s.op = true ∧ ∃ e, s.ex = some e ∧
      ((∃ k, verdict s.cfg e.cmd f = .error k ∧ t = s.nextAttempt) ∨
       (∃ x, verdict s.cfg e.cmd f = .ok x ∧ t = (s.endExchange e).deliver x))) ∨
    (s.idle ∧ t = s.finish (parseResult s.cfg f)) := by
  unfold receive at h
  split at h
  · rename_i hx
    split at h
    · simp at h
    · rename_i e he
      refine .inl ⟨hx, e, he, ?_⟩
      split at h <;> rename_i y hv <;> cases h
      · exact .inl ⟨y, hv, rfl⟩
      · exact .inr ⟨y, hv, rfl⟩
  · rw [whenIdle_next] at h
    obtain ⟨hi, h⟩ := h
    cases h
    exact .inr ⟨hi, rfl⟩

/-- A receiver faults only where an EXEC runs without an exchange. -/
theorem receive_fault {f : Bytes} {s : State} {r : Fault} (h : receive f s = .fault r) :
    exchanging s.op = true ∧ s.ex = none := by
  unfold receive at h
  split at h
  · rename_i hx
    split at h
    · rename_i he; exact ⟨hx, he⟩
    · split at h <;> simp at h
  · rw [whenIdle_fault] at h
    simp at h

theorem decFrame_next {p : Bytes} {s t : State} (h : decFrame p s = .next t) :
    (exchanging s.op = true ∧ t = { s with dec := none, rxMsg := some p }) ∨
    (s.op = some .dec ∧ t = State.finish (.frame p) { s with dec := none }) := by
  unfold decFrame at h
  split at h
  · rename_i hx; cases h; exact .inl ⟨hx, rfl⟩
  · split at h
    · rename_i hx; cases h; exact .inr ⟨hx, rfl⟩
    · simp at h

theorem decFrame_fault {p : Bytes} {s : State} {r : Fault} (h : decFrame p s = .fault r) :
    exchanging s.op = false ∧ s.op ≠ some .dec := by
  unfold decFrame at h
  split at h
  · simp at h
  · split at h <;> simp_all

theorem decError_next {k : ErrorKind} {s t : State} (h : decError k s = .next t) :
    (exchanging s.op = true ∧ t = s.nextAttempt) ∨
    (s.op = some .dec ∧ t = State.finish (.error k) { s with dec := none }) := by
  unfold decError at h
  split at h
  · rename_i hx; cases h; exact .inl ⟨hx, rfl⟩
  · split at h
    · rename_i hx; cases h; exact .inr ⟨hx, rfl⟩
    · simp at h

theorem decError_fault {k : ErrorKind} {s : State} {r : Fault} (h : decError k s = .fault r) :
    exchanging s.op = false ∧ s.op ≠ some .dec := by
  unfold decError at h
  split at h
  · simp at h
  · split at h <;> simp_all

/-- A byte waits in RXQ, moves the running DEC on, or ends it with a frame or a framing error. -/
theorem feed_cases (b : Byte) (s : State) :
    (s.dec = none ∧ feed b s = .next { s with rxq := s.rxq ++ [b] }) ∨
    ∃ d, s.dec = some d ∧
      ((∃ d', decByte s.cfg d b = .more d' ∧ feed b s = .next { s with dec := some d' }) ∨
       (∃ p, decByte s.cfg d b = .frame p ∧ feed b s = decFrame p s) ∨
       (decByte s.cfg d b = .framing ∧ feed b s = decError .framingError s)) := by
  cases hd : s.dec with
  | none => exact .inl ⟨rfl, by simp [feed, hd]⟩
  | some d =>
    refine .inr ⟨d, rfl, ?_⟩
    cases hb : decByte s.cfg d b with
    | more d' => exact .inl ⟨d', rfl, by simp [feed, hd, hb]⟩
    | frame p => exact .inr (.inl ⟨p, rfl, by simp [feed, hd, hb]⟩)
    | framing => exact .inr (.inr ⟨rfl, by simp [feed, hd, hb]⟩)

/-! ### The sequencer -/

/-- The settle event in `S1` puts the second pattern on the lines, or takes a transport error. -/
theorem settled_first {s : State} (hs : s.seq = some .s1) (hh : s.handle.isSome = true) :
    settled s = if s.callFails .failLine then .next s.lineFailed.transportError
      else .next { s.linesSet true false with seq := some .s2 } := by
  unfold settled
  rw [hs]
  simp only [whenHandle]
  rw [if_pos hh, setLines_eq]
  split_ifs <;> rfl

/-- The settle event ends the first wait with the second line pattern, ends the second wait with RSTSEQ's return, or finds no
wait. -/
theorem settled_next {s t : State} (h : settled s = .next t) :
    (s.seq = some .s1 ∧ s.handle.isSome ∧
      ((s.callFails .failLine ∧ t = s.lineFailed.transportError) ∨
       (¬ s.callFails .failLine ∧ t = { s.linesSet true false with seq := some .s2 }))) ∨
    (s.seq = some .s2 ∧
      ((s.op = some .rstseq ∧ t = State.finish .ok { s with seq := none }) ∨
       (s.op = some .sync ∧ t = State.startExchange (syncCommand s.cfg) { s with seq := none }))) ∨
    (s.seq ≠ some .s1 ∧ s.seq ≠ some .s2 ∧ t = s) := by
  unfold settled at h
  split at h
  · rename_i hs
    rw [whenHandle_next, setLines_eq] at h
    refine .inl ⟨hs, h.1, ?_⟩
    by_cases ha : s.upcoming = .failLine <;> simp [State.callFails, ha] at h ⊢ <;> exact h.2.symm
  · rename_i hs
    refine .inr (.inl ⟨hs, ?_⟩)
    simp only [afterReset] at h
    split at h
    · rename_i ho; cases h; exact .inl ⟨ho, rfl⟩
    · rename_i ho; cases h; exact .inr ⟨ho, rfl⟩
    · simp at h
  all_goals (rename_i hs; cases h; exact .inr (.inr ⟨by simp [hs], by simp [hs], rfl⟩))

end Sys2Proof.Machine
end

