-- ==== Sys2Proof/Laws/Fetch.lean ====
section
/-! SUPPORT. What a step comes to: the outcome of fetching and running is, for a byte of a frame, the decoder's step on that
byte, and, for a transmitter's frame, TxWrite of that frame. -/

namespace Sys2Proof.Machine

/-- The outcome of an action: a step is this of what it fetches. -/
def Action.out : Action → Out
  | .run i s => exec i s
  | .settled o => o

theorem step_out (s : State) : step s = (act s.upcoming s.taken).out := by
  unfold step fetch
  cases act s.upcoming s.taken <;> rfl

/-- A step with a listed event. -/
theorem step_cons {s : State} {e : Event} {ev : List Event} (h : s.events = e :: ev) :
    step s = (act e { s with events := ev }).out := by
  rw [step_out, upcoming_cons h, taken_cons h]

/-- A request form runs as the transmission of its Command. -/
theorem exec_commandOf {i : Instr} {c : Command} {s : State} (h : commandOf s.cfg i = some c) :
    exec i s = transmit c s := by
  cases i <;> simp [commandOf] at h <;> subst h <;> rfl

/-- What a transmitter reads from its frame is a Command whose frame that is. -/
theorem frameRequest_eq_some {P : Params} {f : Bytes} {i : Instr} (h : frameRequest P f = some i) :
    ∃ c, commandOf P i = some c ∧ commandFrame P c = f ∧ c.WF := by
  unfold frameRequest at h
  split at h
  · split at h
    · split at h
      · rename_i c hc
        split at h
        · rename_i hcond
          cases h
          exact ⟨c, hc, hcond⟩
        · simp at h
      · simp at h
    · simp at h
  · simp at h

/-- Whatever a transmitter's frame is, its turn writes that frame. -/
theorem fetchFrame_out (f : Bytes) (s : State) : (fetchFrame f s).out = txWrite f s := by
  unfold fetchFrame
  split
  · rename_i i hi
    obtain ⟨c, h1, h2, h3⟩ := frameRequest_eq_some hi
    simp only [Action.out]
    rw [exec_commandOf h1, transmit, whenCommand, if_pos h3, h2]
  · rfl

/-- Whatever the byte, the turn of a running DEC takes it. -/
theorem fetchSymbol_out {d : Decoder} {s : State} (hw : s.cfg.WF) (hd : s.dec = some d) (b : Byte) :
    (fetchSymbol d b s).out = feed b s := by
  have hne : s.cfg.esc ≠ s.cfg.delim := fun h => hw.1 h.symm
  unfold fetchSymbol
  cases hst : d.st <;> simp only
  · split
    · rename_i h; subst h; rfl
    · rfl
  · by_cases h1 : b = s.cfg.delim
    · subst h1; simp [decodeLink, Action.out, exec, execLinkDelim]
    · by_cases h2 : b = s.cfg.esc
      · subst h2; simp [decodeLink, h1, Action.out]
      · simp [decodeLink, h1, h2, Action.out, exec, execLinkLit]
  · by_cases h1 : b = s.cfg.escDelim
    · subst h1; simp [decodeLink, hne, Action.out, exec, execLinkEscd, feedEscape, hd, hst]
    · by_cases h2 : b = s.cfg.escEsc
      · subst h2; simp [decodeLink, hne, h1, Action.out, exec, execLinkEsce, feedEscape, hd, hst]
      · simp [decodeLink, hne, h1, h2, Action.out, exec, execLinkEscbad, feedEscape, hd, hst]
  · split
    · rename_i h; subst h; rfl
    · rfl

/-- What a received payload reads as runs as the receiver's taking some payload. -/
theorem exec_decodeReceived (P : Params) (f : Bytes) (s : State) :
    ∃ g, exec (decodeReceived P f) s = receive g s := by
  unfold decodeReceived
  split
  · exact ⟨f, rfl⟩
  · split
    · split
      · unfold responseForm
        split_ifs <;> exact ⟨_, rfl⟩
      · exact ⟨_, rfl⟩
    · exact ⟨_, rfl⟩

end Sys2Proof.Machine
end

