-- ==== Sys2Proof/Laws/PerInstr.lean ====
section
/-! SUPPORT. The family Shape: what the bytes of an instruction look like, by the level it is read on. One lemma per row. -/

namespace Sys2Proof.Laws.Shape

/-- A link symbol has one or two bytes; a request's bytes are `SER` of its Command; a well-formed response has at least
`MIN_RESP_LEN` bytes and the direction marker `0x01`; an operation has none (30_encoding.md R61, R66, R67, R83). -/
def Statement (i : Instr) : Prop :=
  ∀ P : Params, i.wf P = true →
    (layerOf i = .link → 1 ≤ (encode P i).length ∧ (encode P i).length ≤ 2) ∧
    (layerOf i = .request → ∃ c, Machine.commandOf P i = some c ∧ c.WF ∧ encode P i = Machine.serialise c) ∧
    (layerOf i = .received → (∃ f, i = .msgIllegal f ∧ encode P i = f) ∨
      (minRespLen P ≤ (encode P i).length ∧ (encode P i).head? = some dirResp)) ∧
    (layerOf i = .operation → encode P i = [])

theorem linkDelim : Statement .linkDelim := by intro P h; simp [layerOf, encode]
theorem linkEscd : Statement .linkEscd := by intro P h; simp [layerOf, encode]
theorem linkEsce : Statement .linkEsce := by intro P h; simp [layerOf, encode]
theorem linkEscbad (b : Byte) : Statement (.linkEscbad b) := by intro P h; simp [layerOf, encode]
theorem linkLit (b : Byte) : Statement (.linkLit b) := by intro P h; simp [layerOf, encode]

theorem reqSync (ck : Word) (pl : Bytes) : Statement (.reqSync ck pl) := by
  intro P h
  simp only [Instr.wf, decide_eq_true_eq] at h
  simp only [layerOf, reduceCtorEq, false_implies, true_and, and_true, true_implies]
  exact ⟨_, rfl, h, encodeRequest_eq_serialise _ _ _⟩

theorem reqReadReg (ck : Word) (pl : Bytes) : Statement (.reqReadReg ck pl) := by
  intro P h
  simp only [Instr.wf, decide_eq_true_eq] at h
  simp only [layerOf, reduceCtorEq, false_implies, true_and, and_true, true_implies]
  exact ⟨_, rfl, h, encodeRequest_eq_serialise _ _ _⟩

theorem reqGeneric (op : Byte) (ck : Word) (pl : Bytes) : Statement (.reqGeneric op ck pl) := by
  intro P h
  simp only [Instr.wf, Bool.and_eq_true, decide_eq_true_eq] at h
  simp only [layerOf, reduceCtorEq, false_implies, true_and, and_true, true_implies]
  exact ⟨_, rfl, h.2, encodeRequest_eq_serialise _ _ _⟩

/-- The bytes of a response with `N_STATUS` status bytes. -/
theorem response_shape (P : Params) (op : Byte) (len : Half) (v : Quad) (rem st : Bytes) (h : st.length = P.nStatus) :
    minRespLen P ≤ (encodeResponse op len v rem st).length ∧ (encodeResponse op len v rem st).head? = some dirResp := by
  refine ⟨?_, rfl⟩
  rw [length_encodeResponse, minRespLen]
  omega

theorem respSync (len : Half) (v : Quad) (rem st : Bytes) : Statement (.respSync len v rem st) := by
  intro P h
  simp only [Instr.wf, beq_iff_eq] at h
  simp only [layerOf, reduceCtorEq, false_implies, true_and, and_true, true_implies]
  exact .inr (response_shape P _ _ _ _ _ h)

theorem respReadReg (len : Half) (v : Quad) (rem st : Bytes) : Statement (.respReadReg len v rem st) := by
  intro P h
  simp only [Instr.wf, beq_iff_eq] at h
  simp only [layerOf, reduceCtorEq, false_implies, true_and, and_true, true_implies]
  exact .inr (response_shape P _ _ _ _ _ h)

theorem respGeneric (op : Byte) (len : Half) (v : Quad) (rem st : Bytes) : Statement (.respGeneric op len v rem st) := by
  intro P h
  simp only [Instr.wf, Bool.and_eq_true, beq_iff_eq] at h
  simp only [layerOf, reduceCtorEq, false_implies, true_and, and_true, true_implies]
  exact .inr (response_shape P _ _ _ _ _ h.2)

theorem msgIllegal (f : Bytes) : Statement (.msgIllegal f) := by
  intro P _
  simp only [layerOf, reduceCtorEq, false_implies, true_and, and_true, true_implies]
  exact .inl ⟨f, rfl, rfl⟩

theorem enc (p : Bytes) : Statement (.enc p) := by intro P h; simp [layerOf, encode]
theorem dec : Statement .dec := by intro P h; simp [layerOf, encode]
theorem mksync : Statement .mksync := by intro P h; simp [layerOf, encode]
theorem mkrdreg (a : Word) : Statement (.mkrdreg a) := by intro P h; simp [layerOf, encode]
theorem ser (c : Command) : Statement (.ser c) := by intro P h; simp [layerOf, encode]
theorem parse (f : Bytes) : Statement (.parse f) := by intro P h; simp [layerOf, encode]
theorem setlines (d r : Bool) : Statement (.setlines d r) := by intro P h; simp [layerOf, encode]
theorem rstseq : Statement .rstseq := by intro P h; simp [layerOf, encode]
theorem connect (path : Bytes) (baud : Nat) : Statement (.connect path baud) := by intro P h; simp [layerOf, encode]
theorem sync : Statement .sync := by intro P h; simp [layerOf, encode]
theorem exec (c : Command) : Statement (.exec c) := by intro P h; simp [layerOf, encode]
theorem readreg (a : Word) : Statement (.readreg a) := by intro P h; simp [layerOf, encode]

end Sys2Proof.Laws.Shape
end

