-- ==== Sys2Proof/Laws/Step.lean ====
section
/-! SUPPORT. Everything one step can do, said once: what each agent's turn and each requested operation can come to when the
outcome is a next state. Proofs about every step cite these and do not unfold the step. -/

namespace Sys2Proof.Machine

/-- What a DEC that takes a byte can come to. -/
theorem feed_next {b : Byte} {s t : State} (h : feed b s = .next t) :
    (s.dec = none ∧ t = { s with rxq := s.rxq ++ [b] }) ∨ ∃ d, s.dec = some d ∧
      ((∃ d', t = { s with dec := some d' }) ∨
       (exchanging s.op = true ∧ ∃ p, t = { s with dec := none, rxMsg := some p }) ∨
       (exchanging s.op = true ∧ t = s.nextAttempt) ∨
       (s.op = some .dec ∧ ∃ r, t = State.finish r { s with dec := none })) := by
  rcases feed_cases b s with ⟨hd, hf⟩ | ⟨d, hd, ⟨d', _, hf⟩ | ⟨p, _, hf⟩ | ⟨_, hf⟩⟩
  · rw [hf] at h; cases h; exact .inl ⟨hd, rfl⟩
  · rw [hf] at h; cases h; exact .inr ⟨d, hd, .inl ⟨d', rfl⟩⟩
  · rw [hf] at h
    rcases decFrame_next h with ⟨hx, e⟩ | ⟨hx, e⟩
    · exact .inr ⟨d, hd, .inr (.inl ⟨hx, p, e⟩)⟩
    · exact .inr ⟨d, hd, .inr (.inr (.inr ⟨hx, _, e⟩))⟩
  · rw [hf] at h
    rcases decError_next h with ⟨hx, e⟩ | ⟨hx, e⟩
    · exact .inr ⟨d, hd, .inr (.inr (.inl ⟨hx, e⟩))⟩
    · exact .inr ⟨d, hd, .inr (.inr (.inr ⟨hx, _, e⟩))⟩

/-- Under any parameters at all, the turn of a running DEC takes some byte. -/
theorem fetchSymbol_feed (d : Decoder) (b : Byte) (s : State) (hd : s.dec = some d) :
    ∃ b', (fetchSymbol d b s).out = feed b' s := by
  unfold fetchSymbol
  cases hst : d.st <;> simp only
  · split
    · exact ⟨_, rfl⟩
    · exact ⟨_, rfl⟩
  · by_cases h1 : b = s.cfg.delim
    · exact ⟨s.cfg.delim, by simp [decodeLink, h1, Action.out, exec, execLinkDelim]⟩
    · by_cases h2 : b = s.cfg.esc
      · exact ⟨s.cfg.esc, by subst h2; simp [decodeLink, h1, Action.out]⟩
      · exact ⟨b, by simp [decodeLink, h1, h2, Action.out, exec, execLinkLit]⟩
  · by_cases h0 : s.cfg.esc = s.cfg.delim
    · exact ⟨s.cfg.delim, by simp [decodeLink, h0, Action.out, exec, execLinkDelim]⟩
    · by_cases h1 : b = s.cfg.escDelim
      · exact ⟨s.cfg.escDelim, by simp [decodeLink, h0, h1, Action.out, exec, execLinkEscd, feedEscape, hd, hst]⟩
      · by_cases h2 : b = s.cfg.escEsc
        · exact ⟨s.cfg.escEsc, by subst h2; simp [decodeLink, h0, h1, Action.out, exec, execLinkEsce, feedEscape, hd, hst]⟩
        · exact ⟨b, by simp [decodeLink, h0, h1, h2, Action.out, exec, execLinkEscbad, feedEscape, hd, hst]⟩
  · split
    · exact ⟨_, rfl⟩
    · exact ⟨_, rfl⟩

/-- What the receiver's turn can come to: the payload it holds is received, nothing is there to read, or the head byte
of RXQ is taken. -/
theorem receiverTurn_next {s t : State} (h : (receiverTurn s).out = .next t) :
    (∃ f g, s.rxMsg = some f ∧ receive g { s with rxMsg := none } = .next t) ∨
    (s.rxMsg = none ∧ s.dec = none ∧ t = s) ∨
    (∃ d, s.rxMsg = none ∧ s.dec = some d ∧ s.handle.isSome = true ∧
      ((s.rxq = [] ∧ t = s) ∨
       (∃ b r b', s.rxq = b :: r ∧ feed b' { s with rxq := r } = .next t))) := by
  unfold receiverTurn at h
  split at h
  · rename_i f hf
    simp only [Action.out] at h
    obtain ⟨g, hg⟩ := exec_decodeReceived s.cfg f { s with rxMsg := none }
    rw [hg] at h
    exact .inl ⟨f, g, hf, h⟩
  · rename_i hm
    split at h
    · rename_i hd; cases h; exact .inr (.inl ⟨hm, hd, rfl⟩)
    · rename_i d hd
      refine .inr (.inr ⟨d, hm, hd, ?_⟩)
      split at h
      · simp [Action.out] at h
      · rename_i hh
        refine ⟨by cases hx : s.handle <;> simp_all, ?_⟩
        split at h
        · rename_i hr; cases h; exact .inl ⟨hr, rfl⟩
        · rename_i b r hr
          obtain ⟨b', hb⟩ := fetchSymbol_feed d b { s with rxq := r } hd
          rw [hb] at h
          exact .inr ⟨b, r, b', hr, h⟩

/-- What the turn of the running transmitter can come to. -/
theorem transmitterTurn_next {s t : State} (h : (transmitterTurn s).out = .next t) :
    t = s ∨ (∃ d, s.exDone = some d ∧ s.tx = some .test ∧ t = { s with tx := if d then none else some .write }) ∨
    (∃ e, s.ex = some e ∧ s.tx = some .write ∧ txWrite e.frame { s with tx := some .wait } = .next t) := by
  unfold transmitterTurn at h
  split at h
  · cases h; exact .inl rfl
  · cases h; exact .inl rfl
  · rename_i ht
    split at h
    · simp [Action.out] at h
    · rename_i e he; cases h; exact .inr (.inl ⟨e, he, ht, rfl⟩)
  · rename_i ht
    split at h
    · simp [Action.out] at h
    · rename_i e he; rw [fetchFrame_out] at h; exact .inr (.inr ⟨e, he, ht, h⟩)

/-- What the turn of a late transmitter can come to. -/
theorem lateTurn_next {k : Nat} {s t : State} (h : (lateTurn k s).out = .next t) :
    t = s ∨ (∃ l, s.late[k]? = some l ∧ l.pos = .test ∧ t = { s with late := s.late.eraseIdx k }) ∨
    (∃ l, s.late[k]? = some l ∧ l.pos = .write ∧
      txWrite l.frame { s with late := s.late.set k { l with pos := .wait } } = .next t) := by
  unfold lateTurn at h
  split at h
  · cases h; exact .inl rfl
  · rename_i l hl
    split at h
    · rename_i hp; cases h; exact .inr (.inl ⟨l, hl, hp, rfl⟩)
    · cases h; exact .inl rfl
    · rename_i hp; rw [fetchFrame_out] at h; exact .inr (.inr ⟨l, hl, hp, h⟩)

/-- The state that a failed first step of RSTSEQ leaves, in the operation `o`. -/
def State.resetFailed (o : Running) (s : State) : State :=
  State.transportError (State.lineFailed { s with op := some o, res := none, seq := some .s0 })

/-- What the request of an operation can come to, if it answers a next state: it was allowed, and it gives a result at once,
or starts a DEC, or sets the lines, or starts RSTSEQ, or connects, or starts an exchange. -/
theorem operation_next {i : Instr} {s t : State} (hl : layerOf i = .operation) (h : exec i s = .next t) :
    s.idle ∧
    ((∃ r, t = s.finish r ∧ ∀ d q, i ≠ .setlines d q) ∨
     (i = .dec ∧ s.isOpen ∧ s.handle.isSome ∧ t = { s with op := some .dec, dec := some decStart, res := none }) ∨
     (∃ d r, i = .setlines d r ∧ s.isOpen ∧ s.handle.isSome ∧
       ((s.callFails .failLine ∧ t = s.lineFailed.transportError) ∨
        (¬ s.callFails .failLine ∧ t = (s.linesSet d r).finish .ok))) ∨
     (∃ o, ((i = .rstseq ∧ o = .rstseq) ∨ (i = .sync ∧ o = .sync ∧ s.psState = .connected)) ∧ s.isOpen ∧
       s.handle.isSome ∧
       ((s.callFails .failLine ∧ t = s.resetFailed o) ∨
        (¬ s.callFails .failLine ∧ t = { s.linesSet false true with op := some o, res := none, seq := some .s1 }))) ∨
     (∃ p b, i = .connect p b ∧ s.psState = .disconnected ∧
       ((s.callFails .failOpen ∧ t = s.taken.transportError) ∨
        (∃ hd, t = State.finish .ok
          { s with handle := some hd, freeTick := s.freeTick + 1, baud := b, psState := .connected }))) ∨
     (∃ c o, ((i = .exec c ∧ o = .exec) ∨ (∃ a, i = .readreg a ∧ o = .readreg)) ∧ s.psState = .synced ∧
       s.handle.isSome ∧ t = State.startExchange c { s with op := some o })) := by
  have hreset : ∀ o, startReset o s = .next t →
      (s.callFails .failLine ∧ t = s.resetFailed o) ∨
      (¬ s.callFails .failLine ∧ t = { s.linesSet false true with op := some o, res := none, seq := some .s1 }) := by
    intro o ho
    rcases startReset_cases o s with ⟨ha, e⟩ | ⟨ha, e⟩ <;> rw [e] at ho <;> cases ho
    · exact .inl ⟨ha, rfl⟩
    · exact .inr ⟨ha, rfl⟩
  cases i <;> simp [layerOf] at hl <;>
    simp only [exec, execEnc, execDec, execMksync, execMkrdreg, execSer, execParse, execSetlines, execRstseq, execConnect,
      execSync, execExec, execReadreg] at h <;>
    rw [whenIdle_next] at h <;> obtain ⟨hi, h⟩ := h <;> refine ⟨hi, ?_⟩
  case enc => cases h; exact .inl ⟨_, rfl, by simp⟩
  case mksync => cases h; exact .inl ⟨_, rfl, by simp⟩
  case mkrdreg => cases h; exact .inl ⟨_, rfl, by simp⟩
  case parse => cases h; exact .inl ⟨_, rfl, by simp⟩
  case ser => rw [whenCommand_next] at h; have h := h.2; cases h; exact .inl ⟨_, rfl, by simp⟩
  case dec =>
    rw [whenOpen_next, whenHandle_next] at h; obtain ⟨h1, h2, h⟩ := h; cases h
    exact .inr (.inl ⟨rfl, h1, h2, rfl⟩)
  case setlines d r =>
    rw [whenOpen_next, whenHandle_next] at h; obtain ⟨h1, h2, h⟩ := h
    rw [setLines_eq] at h
    refine .inr (.inr (.inl ⟨d, r, rfl, h1, h2, ?_⟩))
    by_cases ha : s.upcoming = .failLine <;> simp [State.callFails, ha] at h ⊢ <;> exact h.symm
  case rstseq =>
    rw [whenOpen_next, whenHandle_next] at h; obtain ⟨h1, h2, h⟩ := h
    exact .inr (.inr (.inr (.inl ⟨_, .inl ⟨rfl, rfl⟩, h1, h2, hreset _ h⟩)))
  case sync =>
    rw [whenState_next, whenHandle_next] at h; obtain ⟨h1, h2, h⟩ := h
    exact .inr (.inr (.inr (.inl ⟨_, .inr ⟨rfl, rfl, h1⟩, .inl h1, h2, hreset _ h⟩)))
  case connect p b =>
    rw [whenState_next] at h; obtain ⟨h1, h⟩ := h
    refine .inr (.inr (.inr (.inr (.inl ⟨p, b, rfl, h1, ?_⟩))))
    by_cases ha : s.upcoming = .failOpen <;> simp [openTransport, transportCall, ha] at h
    · exact .inl ⟨ha, h.symm⟩
    · exact .inr ⟨_, h.symm⟩
  case exec c =>
    rw [whenState_next, whenCommand_next, whenHandle_next] at h; obtain ⟨h1, h2, h3, h⟩ := h; cases h
    exact .inr (.inr (.inr (.inr (.inr ⟨c, _, .inl ⟨rfl, rfl⟩, h1, h3, rfl⟩))))
  case readreg a =>
    rw [whenState_next, whenHandle_next] at h; obtain ⟨h1, h2, h⟩ := h; cases h
    exact .inr (.inr (.inr (.inr (.inr ⟨_, _, .inr ⟨a, rfl, rfl⟩, h1, h2, rfl⟩))))

/-- A turn of a DEC that has a byte to read takes that byte. -/
theorem step_reads {s : State} {b : Byte} {r : Bytes} {ev : List Event} {d : Decoder} (hw : s.cfg.WF) (h : s.reads b r ev)
    (hd : s.dec = some d) : step s = feed b { s with events := ev, rxq := r } := by
  obtain ⟨h1, h2, h3, h4⟩ := h
  rw [step_cons h1]
  have h4' : s.handle.isNone = false := by simpa using h4
  have key : act .rx { s with events := ev } = fetchSymbol d b { s with events := ev, rxq := r } := by
    simp [act, receiverTurn, h3, hd, h4', h2]
  rw [key]
  exact fetchSymbol_out (s := { s with events := ev, rxq := r }) hw hd b

/-- A step is its event's action on the state without that event, which differs in nothing but the list of events and the count
of free ones. -/
theorem step_act {s t : State} (h : step s = .next t) :
    ∃ ev n, (act s.upcoming { s with events := ev, eventTick := n }).out = .next t :=
  ⟨_, _, (step_out s).symm.trans h⟩

/-- A failed read aborts the session if a DEC waits for it, and is nothing otherwise. -/
theorem readFailed_next {s t : State} (h : readFailed s = .next t) :
    (∃ d, s.dec = some d ∧ s.handle.isSome ∧ t = s.transportError) ∨ (s.dec = none ∧ t = s) := by
  unfold readFailed at h
  split at h
  · rename_i hd
    rw [whenHandle_next] at h
    obtain ⟨hh, h⟩ := h
    cases h
    exact .inl ⟨_, Option.eq_some_of_isSome hd, hh, rfl⟩
  · rename_i hd
    cases h
    exact .inr ⟨by simpa using hd, rfl⟩

/-- What holds of every way an event can come to a next state holds of the step. -/
theorem act_ind {R : State → State → Event → Prop} {s t : State} {e : Event}
    (h : (act e s).out = .next t)
    (hreq : ∀ i, e = .request i → layerOf i = .operation → exec i s = .next t → R s t e)
    (harr : ∀ b, e = .arrive b → R s { s with rxq := s.rxq ++ [b] } e)
    (htake : e = .take → R s { s with txq := s.txq.tail } e)
    (hrf : e = .failRead → ∀ d, s.dec = some d → R s s.transportError e)
    (hset : e = .settle → settled s = .next t → R s t e)
    (hretx : e = .retx → R s { s with tx := s.tx.map TxPos.fired } e)
    (hid : (∀ b, e ≠ .arrive b) → e ≠ .rx → R s s e)
    (hdl : e = .deadline → ∀ d, s.dec = some d → decError .timeoutError s = .next t → R s t e)
    (hrx : e = .rx → (receiverTurn s).out = .next t → R s t e)
    (htx : e = .tx → (transmitterTurn s).out = .next t → R s t e)
    (hlate : ∀ k, e = .late k → (lateTurn k s).out = .next t → R s t e)
    (hlr : ∀ k, e = .lateRetx k → R s { s with late := s.late.modify k fun t => { t with pos := t.pos.fired } } e) :
    R s t e := by
  cases e <;> simp only [act] at h
  case request i =>
    split at h
    · rename_i hi; exact hreq i rfl (by simpa [isOperation] using hi) h
    · simp [Action.out] at h
  case arrive b => cases h; exact harr b rfl
  case take => cases h; exact htake rfl
  case settle => exact hset rfl h
  case retx => cases h; exact hretx rfl
  case deadline =>
    simp only [Action.out] at h
    cases hd : s.dec with
    | none => simp [hd] at h; subst h; exact hid (by simp) (by simp)
    | some d => simp [hd] at h; exact hdl rfl d hd h
  case rx => exact hrx rfl h
  case tx => exact htx rfl h
  case late k => exact hlate k rfl h
  case lateRetx k => cases h; exact hlr k rfl
  case failRead =>
    rcases readFailed_next h with ⟨d, hd, _, rfl⟩ | ⟨_, rfl⟩
    · exact hrf rfl d hd
    · exact hid (by simp) (by simp)
  all_goals (cases h; exact hid (by simp) (by simp))

/-- A matched Response ends the operation with some result; SYNC is then `Synced`. -/
theorem deliver_cases (x : Response) (s : State) :
    ∃ r p, s.deliver x = { s with psState := p, op := none, res := some r } ∧
      (p = s.psState ∨ (s.op = some .sync ∧ p = .synced)) := by
  unfold State.deliver
  split
  · rename_i h; exact ⟨_, _, rfl, .inr ⟨h, rfl⟩⟩
  · exact ⟨_, _, rfl, .inl rfl⟩
  · exact ⟨_, _, rfl, .inl rfl⟩

/-- A transmitter's transport error aborts the session, with some result. -/
theorem agentError_cases (s : State) : ∃ r, s.agentError = { s.abort with res := r } := by
  unfold State.agentError; split
  · exact ⟨_, rfl⟩
  · exact ⟨_, rfl⟩

/-! ### Runs of many steps -/

theorem run_succ {n : Nat} {s t : State} (h : step s = .next t) : run (n + 1) s = run n t := by
  simp [run, h]

theorem run_add {m : Nat} {s t : State} (n : Nat) (h : run m s = .next t) : run (m + n) s = run n t := by
  induction m generalizing s with
  | zero => cases h; rw [Nat.zero_add]
  | succ m ih =>
    rw [Nat.succ_add]
    cases hs : step s with
    | next u => rw [run_succ hs] at h ⊢; exact ih h
    | fault r => simp [run, hs] at h
    | refused r => simp [run, hs] at h

end Sys2Proof.Machine
end

