-- ==== Sys2Proof/Tests/Slice0.lean ====
section
/-! SUPPORT. The model's own tests: terms that WellFormed refuses, words written out from the spec's encodings, single steps
with the expected values of spec/95_test_vectors.md, and for every statement with hypotheses a state that meets them. -/

namespace Sys2Proof.Tests

open Machine

/-! ### Test states -/

/-- The spec's defaults, with 100 for the settle time, which has no default. -/
def tp : Params := { defaultParams with tSettle := 100 }

/-- The same with `FRAMING_RESYNC = drain`. -/
def tpDrain : Params := { tp with resync := .drain }

/-- A connected session with nothing running, the lines asserted; the environment takes a byte next, so that no transport call
fails. -/
def conn : State :=
  { State.reset with
    cfg := tp, psState := .connected, handle := some 7, baud := 115200, lcDtr := true, lcRts := true, pinDtr := true,
    pinRts := true, events := [.take] }

/-- A synced session with nothing running. -/
def synced : State := { conn with psState := .synced }

/-- A DEC requested directly, in the decoder state `st` with the buffer `buf`, and the bytes `q` in RXQ. -/
def decoding (st : DecSt) (buf q : Bytes) (ev : List Event) : State :=
  { conn with op := some .dec, dec := some ⟨st, buf⟩, rxq := q, events := ev }

/-- The READ_REG command for 0x3FF00050, outstanding. -/
def rd50 : Exchange := newExchange tp (readRegCommand tp 0x3FF00050#32)

/-- An operation `o` whose exchange is `rd50`, the receiver at the start of a DEC, the transmitter at its test. -/
def exchangeOf (o : Running) (q : Bytes) (ev : List Event) : State :=
  { synced with
    op := some o, ex := some rd50, exDone := some false, dec := some decStart, tx := some .test, rxq := q, events := ev }

/-- The reply of V-W20: value 1, 2, 3, 4 and status 0, 0. -/
def reply : Bytes := [0x01#8, 0x0A#8, 0x02#8, 0x00#8, 0x01#8, 0x02#8, 0x03#8, 0x04#8, 0x00#8, 0x00#8]

/-- A SYNC reply of the shortest length. -/
def syncReply : Bytes := [0x01#8, 0x08#8, 0x02#8, 0x00#8, 0x00#8, 0x00#8, 0x00#8, 0x00#8, 0x00#8, 0x00#8]

/-- The state an outcome goes to, if it does. -/
def next? : Out → Option State
  | .next s => some s
  | .fault _ => none
  | .refused _ => none

/-- The refusal of an outcome, if it is one. -/
def refusal? : Out → Option Refusal
  | .next _ => none
  | .fault _ => none
  | .refused r => some r

/-- The result an outcome leaves on `op_res`. -/
def res? (o : Out) : Option Result := (next? o).bind State.res

/-! ### WellFormed: each check refuses an ill-formed term -/

theorem test_wf_escbad_escDelim : (Instr.linkEscbad 0xDC#8).wf tp = false := by decide
theorem test_wf_escbad_escEsc : (Instr.linkEscbad 0xDD#8).wf tp = false := by decide
theorem test_wf_escbad_ok : (Instr.linkEscbad 0xC0#8).wf tp = true := by decide
theorem test_wf_lit_delim : (Instr.linkLit 0xC0#8).wf tp = false := by decide
theorem test_wf_lit_esc : (Instr.linkLit 0xDB#8).wf tp = false := by decide

/-- A payload of `n` zero bytes. -/
def zeros (n : Nat) : Bytes := List.replicate n 0#8

theorem length_zeros (n : Nat) : (zeros n).length = n := List.length_replicate

/-- A payload of 65536 bytes is too long for each request row (41_wiremessage.md R125). -/
theorem test_wf_long_payload :
    (Instr.reqSync 0#32 (zeros 65536)).wf tp = false ∧ (Instr.reqReadReg 0#32 (zeros 65536)).wf tp = false ∧
    (Instr.reqGeneric 2#8 0#32 (zeros 65536)).wf tp = false ∧ (Instr.ser ⟨2#8, 0#32, zeros 65536⟩).wf tp = false ∧
    (Instr.exec ⟨2#8, 0#32, zeros 65536⟩).wf tp = false := by
  simp [Instr.wf, Command.WF, length_zeros]

theorem test_wf_generic_request_is_not_sync : (Instr.reqGeneric 0x08#8 0#32 []).wf tp = false := by decide
theorem test_wf_generic_request_is_not_readreg : (Instr.reqGeneric 0x0A#8 0#32 []).wf tp = false := by decide
theorem test_wf_generic_response_is_not_sync :
    (Instr.respGeneric 0x08#8 0#16 ⟨0#8, 0#8, 0#8, 0#8⟩ [] [0#8, 0#8]).wf tp = false := by decide
theorem test_wf_generic_response_is_not_readreg :
    (Instr.respGeneric 0x0A#8 0#16 ⟨0#8, 0#8, 0#8, 0#8⟩ [] [0#8, 0#8]).wf tp = false := by decide
theorem test_wf_status_length :
    (Instr.respSync 0#16 ⟨0#8, 0#8, 0#8, 0#8⟩ [] [0#8]).wf tp = false ∧
    (Instr.respReadReg 0#16 ⟨0#8, 0#8, 0#8, 0#8⟩ [] [0#8, 0#8, 0#8]).wf tp = false ∧
    (Instr.respGeneric 0x77#8 0#16 ⟨0#8, 0#8, 0#8, 0#8⟩ [] []).wf tp = false := by decide
theorem test_wf_illegal_message_is_no_response : (Instr.msgIllegal reply).wf tp = false := by decide

/-- The constraint column of 00_scope.md R5 refuses equal framing bytes, a short magic and a zero duration. -/
theorem test_params_refused :
    ¬ Params.WF { tp with esc := 0xC0#8 } ∧ ¬ Params.WF { tp with syncMagic := [0x07#8] } ∧
    ¬ Params.WF { tp with nStatus := 0 } ∧ ¬ Params.WF { tp with tSettle := 0 } := by decide

/-! ### Decoding: words written out from 30_encoding.md, one per row that has bytes -/

theorem test_decode_delim : decode tp .link [0xC0#8, 0x99#8] = .ok (.linkDelim, [0x99#8]) := by rfl
theorem test_decode_escd : decode tp .link [0xDB#8, 0xDC#8] = .ok (.linkEscd, []) := by rfl
theorem test_decode_esce : decode tp .link [0xDB#8, 0xDD#8, 0x01#8] = .ok (.linkEsce, [0x01#8]) := by rfl
theorem test_decode_escbad : decode tp .link [0xDB#8, 0xDB#8] = .ok (.linkEscbad 0xDB#8, []) := by rfl
theorem test_decode_lit : decode tp .link [0xDC#8, 0xDD#8] = .ok (.linkLit 0xDC#8, [0xDD#8]) := by rfl

/-- 41_wiremessage.md R121, V-W1 with its first four payload bytes: length 4, checksum 0. -/
theorem test_decode_req_sync :
    decode tp .request [0x00#8, 0x08#8, 0x04#8, 0x00#8, 0x00#8, 0x00#8, 0x00#8, 0x00#8, 0x07#8, 0x07#8, 0x12#8, 0x20#8] =
      .ok (.reqSync 0#32 [0x07#8, 0x07#8, 0x12#8, 0x20#8], []) := by rfl

/-- V-W5: the address 0x3FF000C0, least significant byte first. -/
theorem test_decode_req_readreg :
    decode tp .request [0x00#8, 0x0A#8, 0x04#8, 0x00#8, 0x00#8, 0x00#8, 0x00#8, 0x00#8, 0xC0#8, 0x00#8, 0xF0#8, 0x3F#8] =
      .ok (.reqReadReg 0#32 [0xC0#8, 0x00#8, 0xF0#8, 0x3F#8], []) := by rfl

/-- V-W10: opcode C0, checksum 0xDB0000C0, no payload. -/
theorem test_decode_req_generic :
    decode tp .request [0x00#8, 0xC0#8, 0x00#8, 0x00#8, 0xC0#8, 0x00#8, 0x00#8, 0xDB#8] =
      .ok (.reqGeneric 0xC0#8 0xDB0000C0#32 [], []) := by rfl

theorem test_decode_resp_sync :
    decode tp .received [0x01#8, 0x08#8, 0x02#8, 0x00#8, 0x07#8, 0x07#8, 0x12#8, 0x20#8, 0x00#8, 0x00#8] =
      .ok (.respSync 2#16 ⟨0x07#8, 0x07#8, 0x12#8, 0x20#8⟩ [] [0x00#8, 0x00#8], []) := by rfl

/-- V-W28: length 6, value C0 DB 00 FF, remainder 99 98 97 96, status 01 05. -/
theorem test_decode_resp_readreg :
    decode tp .received [0x01#8, 0x0A#8, 0x06#8, 0x00#8, 0xC0#8, 0xDB#8, 0x00#8, 0xFF#8, 0x99#8, 0x98#8, 0x97#8, 0x96#8,
        0x01#8, 0x05#8] =
      .ok (.respReadReg 6#16 ⟨0xC0#8, 0xDB#8, 0x00#8, 0xFF#8⟩ [0x99#8, 0x98#8, 0x97#8, 0x96#8] [0x01#8, 0x05#8], []) := by
  rfl

/-- V-W29: an opcode no command uses. -/
theorem test_decode_resp_generic :
    decode tp .received [0x01#8, 0x77#8, 0x02#8, 0x00#8, 0x00#8, 0x00#8, 0x00#8, 0x00#8, 0x00#8, 0x00#8] =
      .ok (.respGeneric 0x77#8 2#16 ⟨0#8, 0#8, 0#8, 0#8⟩ [] [0x00#8, 0x00#8], []) := by rfl

/-- V-W25: the block's own request, received. -/
theorem test_decode_illegal :
    decode tp .received [0x00#8, 0x0A#8, 0x04#8, 0x00#8, 0x00#8, 0x00#8, 0x00#8, 0x00#8, 0x50#8, 0x00#8, 0xF0#8, 0x3F#8] =
      .ok (.msgIllegal [0x00#8, 0x0A#8, 0x04#8, 0x00#8, 0x00#8, 0x00#8, 0x00#8, 0x00#8, 0x50#8, 0x00#8, 0xF0#8, 0x3F#8],
        []) := by rfl

/-- What is no instruction is rejected by name. -/
theorem test_decode_rejects :
    decode tp .link [] = .error .noBytes ∧ decode tp .link [0xDB#8] = .error .halfEscape ∧
    decode tp .request [0x01#8, 0x0A#8] = .error .notARequest ∧ decode tp .request [0x00#8] = .error .shortRequest ∧
    decode tp .request [0x00#8, 0x02#8, 0x01#8, 0x00#8, 0#8, 0#8, 0#8, 0#8] = .error .shortRequest ∧
    decode tp .operation [0x00#8] = .error .noSelector := ⟨rfl, rfl, rfl, rfl, rfl, rfl⟩

/-- Words numbered as spec/opcode_table.json numbers them: the first byte is bits 7..0. -/
theorem test_table_word_link :
    decodeTableWord 8 0xC0 = some .linkDelim ∧ decodeTableWord 16 0xDCDB = some .linkEscd ∧
    decodeTableWord 16 0xDDDB = some .linkEsce ∧ decodeTableWord 16 0x00DB = some (.linkEscbad 0x00#8) ∧
    decodeTableWord 8 0xDB = some (.linkEscbad 0x00#8) ∧ decodeTableWord 8 0x05 = some (.linkLit 0x05#8) :=
  ⟨rfl, rfl, rfl, rfl, rfl, rfl⟩

theorem test_table_word_message :
    decodeTableWord 16 0x0800 = some (.reqSync 0#32 []) ∧ decodeTableWord 16 0x0A00 = some (.reqReadReg 0#32 []) ∧
    decodeTableWord 8 0x00 = some (.reqGeneric 0x00#8 0#32 []) ∧
    decodeTableWord 16 0x0801 = some (.respSync 0#16 ⟨0#8, 0#8, 0#8, 0#8⟩ [] [0#8, 0#8]) ∧
    decodeTableWord 16 0x0A01 = some (.respReadReg 0#16 ⟨0#8, 0#8, 0#8, 0#8⟩ [] [0#8, 0#8]) ∧
    decodeTableWord 8 0x01 = some (.respGeneric 0x00#8 0#16 ⟨0#8, 0#8, 0#8, 0#8⟩ [] [0#8, 0#8]) :=
  ⟨rfl, rfl, rfl, rfl, rfl, rfl⟩

/-- The placed word is what the next step runs: a malformed escape, a request, a response. -/
theorem test_withFetchWord_runs :
    res? (step (State.reset.withFetchWord 16 0x00DB)) = some (.error .framingError) ∧
    (next? (step (State.reset.withFetchWord 16 0x0A00))).map State.txq =
      some [0xC0#8, 0x00#8, 0x0A#8, 0#8, 0#8, 0#8, 0#8, 0#8, 0#8, 0xC0#8] ∧
    res? (step (State.reset.withFetchWord 16 0x0A01)) = some (.value ⟨0#8, 0#8, 0#8, 0#8⟩) := ⟨rfl, rfl, rfl⟩

/-! ### ENC, DEC: V-F -/

/-- V-F5 and V-F9. -/
theorem test_enc :
    res? (exec (.enc [0x01#8, 0xC0#8, 0xDB#8]) conn) =
      some (.bytes [0xC0#8, 0x01#8, 0xDB#8, 0xDC#8, 0xDB#8, 0xDD#8, 0xC0#8]) ∧
    res? (exec (.enc [0xDB#8, 0xDD#8]) conn) = some (.bytes [0xC0#8, 0xDB#8, 0xDD#8, 0xDD#8, 0xC0#8]) := by decide

/-- V-F1: the empty payload. -/
theorem test_enc_empty : res? (exec (.enc []) State.reset) = some (.bytes [0xC0#8, 0xC0#8]) := by decide

theorem test_dec_starts : (next? (exec .dec conn)).bind State.dec = some ⟨.hunt, []⟩ := by decide

/-- V-F21, V-F22, V-F23, V-F24, V-F25, V-F29 on the decoder's step. -/
theorem test_dec_vectors :
    decRun tp decStart [0xFF#8, 0x00#8, 0xDB#8, 0xC0#8, 0x05#8, 0xC0#8] = (.frame [0x05#8], []) ∧
    decRun tp decStart [0xC0#8, 0x01#8, 0xDB#8, 0x02#8, 0x03#8, 0xC0#8] = (.framingError, [0x03#8, 0xC0#8]) ∧
    decRun tp decStart [0xC0#8, 0x01#8, 0xDB#8, 0xC0#8, 0x02#8, 0xC0#8] = (.framingError, [0x02#8, 0xC0#8]) ∧
    decRun tp decStart [0xC0#8, 0xDB#8, 0xDB#8, 0xDD#8, 0xC0#8] = (.framingError, [0xDD#8, 0xC0#8]) ∧
    decRun tp decStart [0xC0#8, 0x01#8, 0xC0#8, 0xC0#8, 0x02#8, 0xC0#8] = (.frame [0x01#8], [0xC0#8, 0x02#8, 0xC0#8]) ∧
    decRun tp decStart [0xC0#8, 0x01#8, 0xDB#8] = (.timeoutError, []) := by decide

/-- V-F34: `drain` discards to the delimiter. -/
theorem test_dec_drain :
    decRun tpDrain decStart [0xC0#8, 0x01#8, 0xDB#8, 0x02#8, 0x03#8, 0xC0#8] = (.framingError, []) := by decide

/-! ### Link symbols, one step each -/

theorem test_delim_opens_and_closes :
    (next? (exec .linkDelim (decoding .hunt [] [] []))).bind State.dec = some ⟨.data, []⟩ ∧
    res? (exec .linkDelim (decoding .data [0x05#8] [] [])) = some (.frame [0x05#8]) := by decide

/-- V-F23: a delimiter after `ESC` is a malformed escape. -/
theorem test_delim_after_esc : res? (exec .linkDelim (decoding .escaped [0x01#8] [] [])) = some (.error .framingError) := by
  decide

theorem test_escd : (next? (exec .linkEscd (decoding .data [0x01#8] [] []))).bind State.dec =
    some ⟨.data, [0x01#8, 0xC0#8]⟩ := by decide
theorem test_esce : (next? (exec .linkEsce (decoding .data [0x01#8] [] []))).bind State.dec =
    some ⟨.data, [0x01#8, 0xDB#8]⟩ := by decide
theorem test_escbad : res? (exec (.linkEscbad 0x02#8) (decoding .data [0x01#8] [] [])) = some (.error .framingError) := by
  decide
theorem test_lit_code_byte : (next? (exec (.linkLit 0xDC#8) (decoding .data [] [] []))).bind State.dec =
    some ⟨.data, [0xDC#8]⟩ := by decide
theorem test_lit_outside_frame : (next? (exec (.linkLit 0x05#8) (decoding .hunt [] [] []))).bind State.dec =
    some ⟨.hunt, []⟩ := by decide

/-! ### WireMessage: V-W -/

theorem test_mksync : res? (exec .mksync conn) = some (.command ⟨0x08#8, 0#32,
    [0x07#8, 0x07#8, 0x12#8, 0x20#8] ++ List.replicate 32 0x55#8⟩) := by decide

/-- V-W2 and V-W7. -/
theorem test_mkrdreg : res? (exec (.mkrdreg 0x3FF00050#32) conn) =
    some (.command ⟨0x0A#8, 0#32, [0x50#8, 0x00#8, 0xF0#8, 0x3F#8]⟩) := by decide

/-- V-W10. -/
theorem test_ser : res? (exec (.ser ⟨0xC0#8, 0xDB0000C0#32, []⟩) conn) =
    some (.bytes [0x00#8, 0xC0#8, 0x00#8, 0x00#8, 0xC0#8, 0x00#8, 0x00#8, 0xDB#8]) := by decide

/-- V-W13. -/
theorem test_ser_too_long :
    refusal? (exec (.ser ⟨0x02#8, 0#32, zeros 65536⟩) conn) = some .notACommand := by
  simp [exec, execSer, whenIdle, whenCommand, Command.WF, length_zeros, conn, State.reset, refusal?]

/-- V-W27: the status is the last two bytes. -/
theorem test_parse :
    res? (exec (.parse [0x01#8, 0x0A#8, 0x00#8, 0x00#8, 0x01#8, 0x02#8, 0x03#8, 0x04#8, 0x00#8, 0x05#8, 0x06#8]) conn) =
      some (.response ⟨0x0A#8, ⟨0x01#8, 0x02#8, 0x03#8, 0x04#8⟩, [0x05#8, 0x06#8],
        [0x01#8, 0x0A#8, 0x00#8, 0x00#8, 0x01#8, 0x02#8, 0x03#8, 0x04#8, 0x00#8, 0x05#8, 0x06#8]⟩) := by decide

/-- V-W21 and V-W24. -/
theorem test_parse_errors :
    res? (exec (.parse (reply.take 9)) conn) = some (.error .parseError) ∧
    res? (exec (.parse (0x02#8 :: reply.tail)) conn) = some (.error .parseError) := by decide

/-- V-W5: the address byte equal to `DELIM` is escaped on the way out. -/
theorem test_req_readreg :
    (next? (exec (.reqReadReg 0#32 [0xC0#8, 0x00#8, 0xF0#8, 0x3F#8]) synced)).map State.txq =
      some [0xC0#8, 0x00#8, 0x0A#8, 0x04#8, 0x00#8, 0x00#8, 0x00#8, 0x00#8, 0x00#8, 0xDB#8, 0xDC#8, 0x00#8, 0xF0#8, 0x3F#8,
        0xC0#8] := by decide

theorem test_req_sync : (next? (exec (.reqSync 0#32 []) conn)).map State.txq =
    some [0xC0#8, 0x00#8, 0x08#8, 0x00#8, 0x00#8, 0x00#8, 0x00#8, 0x00#8, 0x00#8, 0xC0#8] := by decide

/-- V-W10. -/
theorem test_req_generic : (next? (exec (.reqGeneric 0xC0#8 0xDB0000C0#32 []) synced)).map State.txq =
    some [0xC0#8, 0x00#8, 0xDB#8, 0xDC#8, 0x00#8, 0x00#8, 0xDB#8, 0xDC#8, 0x00#8, 0x00#8, 0xDB#8, 0xDD#8, 0xC0#8] := by decide

/-- V-X9: READREG returns the value although the status is 01 05. -/
theorem test_resp_readreg :
    res? (exec (.respReadReg 6#16 ⟨0xC0#8, 0xDB#8, 0x00#8, 0xFF#8⟩ [0x99#8] [0x01#8, 0x05#8]) (exchangeOf .readreg [] [])) =
      some (.value ⟨0xC0#8, 0xDB#8, 0x00#8, 0xFF#8⟩) := by decide

/-- V-X11: a SYNC reply is foreign to a READREG, which goes on. -/
theorem test_resp_sync_is_foreign :
    (next? (exec (.respSync 2#16 ⟨0#8, 0#8, 0#8, 0#8⟩ [] [0#8, 0#8]) (exchangeOf .readreg [] []))).map
      (fun t => (t.op, t.dec, t.res)) = some (some .readreg, some ⟨.hunt, []⟩, none) := by decide

theorem test_resp_generic_is_foreign :
    (next? (exec (.respGeneric 0x77#8 2#16 ⟨0#8, 0#8, 0#8, 0#8⟩ [] [0#8, 0#8]) (exchangeOf .exec [] []))).map State.op =
      some (some .exec) := by decide

theorem test_msg_illegal_is_absorbed :
    (next? (exec (.msgIllegal [0x01#8]) (exchangeOf .exec [] []))).map (fun t => (t.op, t.dec)) =
      some (some .exec, some ⟨.hunt, []⟩) := by decide

/-! ### LineController: V-L -/

/-- V-L1. -/
theorem test_setlines : (next? (exec (.setlines false true) conn)).map (fun t => (t.pinDtr, t.pinRts, t.lcDtr, t.lcRts)) =
    some (false, true, false, true) := by decide

/-- V-L2, first pattern. -/
theorem test_rstseq : (next? (exec .rstseq conn)).map (fun t => (t.pinDtr, t.pinRts, t.seq)) =
    some (false, true, some .s1) := by decide

/-- V-L2, second pattern. -/
theorem test_rstseq_second :
    (next? (step { conn with op := some .rstseq, seq := some .s1, events := [.settle, .take] })).map
      (fun t => (t.pinDtr, t.pinRts, t.seq)) = some (true, false, some .s2) := by decide

/-- V-L4: the second line call fails; the failure is taken with the call. -/
theorem test_rstseq_fails :
    (next? (step { conn with op := some .rstseq, seq := some .s1, events := [.settle, .failLine] })).map
      (fun t => (t.psState, t.res, t.seq, t.events)) =
      some (.failed, some (.error .transportError), none, []) := by decide

/-! ### Session: V-X -/

/-- V-X1. -/
theorem test_connect :
    (next? (exec (.connect [0x2F#8] 115200) { State.reset with baud := 0, events := [.take] })).map
      (fun t => (t.psState, t.baud, t.res)) =
      some (.connected, 115200, some .ok) := by decide

/-- V-X2. -/
theorem test_connect_fails :
    (next? (exec (.connect [0x2F#8] 115200) { State.reset with events := [.failOpen] })).map
      (fun t => (t.psState, t.handle, t.res)) = some (.failed, none, some (.error .transportError)) := by decide

/-- V-X3 and V-X12. -/
theorem test_sync_refused :
    refusal? (exec .sync State.reset) = some .wrongState ∧ refusal? (exec .sync synced) = some .wrongState := by decide

theorem test_sync_starts : (next? (exec .sync conn)).map (fun t => (t.op, t.seq, t.pinDtr, t.pinRts)) =
    some (some .sync, some .s1, false, true) := by decide

/-- V-X4. -/
theorem test_readreg_refused : refusal? (exec (.readreg 0x3FF00050#32) conn) = some .wrongState := by decide

/-- V-W2: the frame of READREG 0x3FF00050. -/
theorem test_readreg_starts :
    ((next? (exec (.readreg 0x3FF00050#32) synced)).bind State.ex).map Exchange.frame =
      some [0xC0#8, 0x00#8, 0x0A#8, 0x04#8, 0x00#8, 0x00#8, 0x00#8, 0x00#8, 0x00#8, 0x50#8, 0x00#8, 0xF0#8, 0x3F#8, 0xC0#8] := by
  decide

theorem test_exec_starts :
    (next? (exec (.exec ⟨0x02#8, 0#32, []⟩) synced)).map (fun t => (t.ex.map fun e => e.cmd.opcode, t.exDone)) =
      some (some 0x02#8, some false) := by decide

/-- 43_session.md R191, 10_state.md R32: when EXEC has returned only `EX.done` is left of it. -/
theorem test_exec_returns :
    (next? (exec (.respReadReg 2#16 ⟨1#8, 2#8, 3#8, 4#8⟩ [] [0#8, 0#8]) (exchangeOf .exec [] []))).map
      (fun t => (t.ex.isNone, t.exDone, t.tx.isNone)) = some (true, some true, true) := by decide

/-- 43_session.md R192: one operation at a time. -/
theorem test_exec_busy : refusal? (exec (.exec ⟨0x02#8, 0#32, []⟩) (exchangeOf .exec [] [])) = some .busy := by decide

/-- V-X8: the late transmitter writes its copy after EXEC has returned. -/
theorem test_late_copy :
    (next? (step { synced with late := [⟨[0xC0#8, 0xC0#8], .write⟩], events := [.late 0, .take] })).map
      (fun t => (t.txq, t.late)) = some ([0xC0#8, 0xC0#8], [⟨[0xC0#8, 0xC0#8], .wait⟩]) := by decide

/-- 10_state.md R26: the caller's port carries operations only. -/
theorem test_request_of_a_symbol :
    refusal? (step { conn with events := [.request .linkDelim] }) = some .notAnOperation := by decide

/-! ### Witnesses: states and operands that meet the hypotheses of the statements of Certificates/Slice0 -/

theorem conn_inv : conn.Inv := by
  refine ⟨by decide, ?_, by decide, ?_, ?_, ?_, ?_⟩
  · exact ⟨by decide, by decide⟩
  · exact ⟨fun e h => by simp [conn, State.reset] at h, fun t h => by simp [conn, State.reset] at h⟩
  · exact fun _ => ⟨rfl, fun _ => by decide⟩
  · intro d h; simp [conn, State.reset] at h
  · exact ⟨fun h => by simp [conn] at h, fun h => by simp [conn] at h⟩

/-- A connected session with a late transmitter that owes its copy. -/
def withLate : State := { conn with late := [⟨commandFrame tp (readRegCommand tp 0#32), .write⟩] }

theorem withLate_inv : withLate.Inv := by
  obtain ⟨h1, h2, h3, h4, h5, h6, h7⟩ := conn_inv
  refine ⟨h1, h2, h3, ⟨h4.1, fun t h => ?_⟩, h5, h6, ⟨fun h => by simp [withLate, conn] at h, fun h => by simp [withLate, conn] at h⟩⟩
  simp [withLate] at h
  exact ⟨readRegCommand tp 0#32, by decide, by rw [h]; rfl⟩

/-- StepKeepsTheInvariant, SessionNeverGoesBack: a byte arrives. InvariantRulesOutFaults: the same state. -/
theorem witness_invariant_and_step :
    State.Inv { conn with events := [.arrive 0x05#8, .take] } ∧
    step { conn with events := [.arrive 0x05#8, .take] } = .next { conn with rxq := [0x05#8] } := ⟨conn_inv, rfl⟩

/-- FatalEntryAbortsTheSession, with the result TransportError: a line call fails. -/
theorem witness_fatal_entry :
    ∃ t, State.Inv { conn with events := [.request (.setlines true true), .failLine] } ∧
      step { conn with events := [.request (.setlines true true), .failLine] } = .next t ∧
      conn.psState ≠ .failed ∧ t.psState = .failed := ⟨_, conn_inv, rfl, by decide, rfl⟩

/-- FatalEntryAbortsTheSession, with the result kept: a late transmitter's write fails with no operation running. -/
theorem witness_fatal_entry_late :
    ∃ t, State.Inv { withLate with events := [.late 0, .failWrite] } ∧
      step { withLate with events := [.late 0, .failWrite] } = .next t ∧ t.psState = .failed ∧
      t.res = none := ⟨_, withLate_inv, rfl, rfl, rfl⟩

/-- StepRunsRequestedOperation. -/
theorem witness_requested_operation :
    ({ conn with events := [.request .mksync] } : State).events = .request .mksync :: [] ∧ layerOf .mksync = .operation := by
  decide

/-- StepRunsLinkSymbol, in `DATA` and in `ESCAPED`. -/
theorem witness_link_symbol :
    (decoding .data [] [0xC0#8] [.rx]).reads 0xC0#8 [] [] ∧
    (decoding .data [] [0xC0#8] [.rx]).dec = some ⟨.data, []⟩ ∧ decode tp .link [0xC0#8] = .ok (.linkDelim, []) ∧
    (decoding .escaped [] [0xDC#8] [.rx]).reads 0xDC#8 [] [] ∧
    (decoding .escaped [] [0xDC#8] [.rx]).dec = some ⟨.escaped, []⟩ ∧
    decode tp .link [tp.esc, 0xDC#8] = .ok (.linkEscd, []) :=
  ⟨by decide, rfl, rfl, by decide, rfl, rfl⟩

/-- StepRunsReceivedMessage. -/
theorem witness_received_message :
    ({ exchangeOf .exec [] [.rx] with dec := none, rxMsg := some reply } : State).rxMsg = some reply ∧
    decode tp .received reply = .ok (.respReadReg 2#16 ⟨1#8, 2#8, 3#8, 4#8⟩ [] [0#8, 0#8], []) := ⟨rfl, rfl⟩

/-- StepRunsOutstandingRequest. -/
theorem witness_outstanding_request :
    tp.WF ∧ layerOf (.reqReadReg 0#32 (le32 0x3FF00050#32)) = .request ∧
    (Instr.reqReadReg 0#32 (le32 0x3FF00050#32)).wf tp = true ∧
    rd50.frame = encFrame tp (encode tp (.reqReadReg 0#32 (le32 0x3FF00050#32))) ∧
    ({ exchangeOf .exec [] [.tx] with tx := some .write } : State).tx = some .write ∧
    ({ exchangeOf .exec [] [.tx] with tx := some .write } : State).ex = some rd50 := by decide

/-- DecodeInvertsEncode, on each of its three levels. -/
theorem witness_encodable :
    tp.WF ∧ (Instr.linkEscbad 0x02#8).wf tp = true ∧ layerOf (.linkEscbad 0x02#8) ≠ .operation ∧
    (Instr.reqGeneric 0x02#8 0#32 []).wf tp = true ∧ layerOf (.reqGeneric 0x02#8 0#32 []) ≠ .received ∧
    (Instr.msgIllegal []).wf tp = true ∧ layerOf (.msgIllegal []) ≠ .operation := by decide

/-- EncodeInvertsDecode. -/
theorem witness_decodable : tp.WF ∧ decode tp .link [0xC0#8, 0x01#8] = .ok (.linkDelim, [0x01#8]) := ⟨by decide, rfl⟩

/-- FrameBodyHasNoBareSpecial: a body that holds an `ESC`, at index 0. -/
theorem witness_body_escape : tp.WF ∧ (encBody tp [0xC0#8])[0]? = some tp.esc := by decide

/-- EncWrapsAndEscapes, ConstructorsBuildTheirCommands, SerLaysOutTheRequest (a payload of 65535 bytes),
LongPayloadIsRefused (of 65536 bytes), ParseIsTotalAndRejectsRequests. -/
theorem witness_idle : conn.idle ∧ conn.cfg.WF ∧ (zeros 65535).length ≤ 65535 ∧ 65535 < (zeros 65536).length ∧
    synced.idle ∧ synced.psState = .synced := by
  simp only [length_zeros]; decide

/-- DecStartsHunting, SetlinesSetsBothLines and, where the line call fails, SetlinesFailureFreesTheLines; the clauses of
ResetSequenceFirstPattern in `Synced` and in `Connected`. -/
theorem witness_open :
    conn.idle ∧ conn.isOpen ∧ conn.handle.isSome = true ∧ ¬ conn.callFails .failLine ∧
    conn.psState = .connected ∧ synced.idle ∧ synced.isOpen ∧ ¬ synced.callFails .failLine ∧
    State.callFails .failLine { conn with events := [.failLine] } ∧
    State.callFails .failLine { synced with events := [.failLine] } := by decide

/-- HuntDiscardsToDelimiter: a delimiter, and another byte. -/
theorem witness_hunting :
    (decoding .hunt [] [0xC0#8] [.rx]).reads 0xC0#8 [] [] ∧ (decoding .hunt [] [0xC1#8] [.rx]).reads 0xC1#8 [] [] ∧
    (decoding .hunt [] [0xC0#8] [.rx]).dec = some ⟨.hunt, []⟩ := by decide

/-- EscapeIntroducerIsRemembered; DataExtendsOrClosesFrame on a literal, and on `DELIM` in a direct DEC and in an EXEC. -/
theorem witness_in_frame :
    tp.WF ∧ (decoding .data [] [0xDB#8] [.rx]).reads tp.esc [] [] ∧
    (decoding .data [] [0xDC#8] [.rx]).reads 0xDC#8 [] [] ∧ (0xDC#8 : Byte) ≠ tp.esc ∧ (0xDC#8 : Byte) ≠ tp.delim ∧
    (decoding .data [] [0xC0#8] [.rx]).reads tp.delim [] [] ∧ tp.delim ≠ tp.esc ∧
    (decoding .data [] [0xC0#8] [.rx]).op = some .dec ∧
    ({ exchangeOf .exec [0xC0#8] [.rx] with dec := some ⟨.data, []⟩ } : State).reads tp.delim [] [] ∧
    exchanging (some .exec) = true := by decide

/-- EscapeCodesAreUndone, both codes; MalformedEscapeIsFramingError on `DELIM`, `ESC` and another byte, direct and in an
EXEC. -/
theorem witness_escaped :
    tp.WF ∧ tp.resync = .immediate ∧ (decoding .escaped [] [0xDC#8] [.rx]).reads tp.escDelim [] [] ∧
    (decoding .escaped [] [0xDD#8] [.rx]).reads tp.escEsc [] [] ∧
    (decoding .escaped [] [0xC0#8] [.rx]).reads tp.delim [] [] ∧ tp.delim ≠ tp.escDelim ∧ tp.delim ≠ tp.escEsc ∧
    (decoding .escaped [] [0xDB#8] [.rx]).reads tp.esc [] [] ∧ tp.esc ≠ tp.escDelim ∧ tp.esc ≠ tp.escEsc ∧
    (decoding .escaped [] [0x02#8] [.rx]).reads 0x02#8 [] [] ∧
    ({ exchangeOf .sync [0x02#8] [.rx] with dec := some ⟨.escaped, []⟩ } : State).reads 0x02#8 [] [] ∧
    exchanging (some .sync) = true := by decide

/-- DrainDiscardsToDelimiter, each of its clauses. -/
theorem witness_draining :
    tpDrain.WF ∧ tpDrain.resync = .drain ∧
    ({ decoding .escaped [] [0x02#8] [.rx] with cfg := tpDrain } : State).reads 0x02#8 [] [] ∧
    (0x02#8 : Byte) ≠ tpDrain.delim ∧
    ({ decoding .drain [] [0x03#8] [.rx] with cfg := tpDrain } : State).reads 0x03#8 [] [] ∧
    ({ decoding .escaped [] [0xC0#8] [.rx] with cfg := tpDrain } : State).reads tpDrain.delim [] [] ∧
    ({ decoding .drain [] [0xC0#8] [.rx] with cfg := tpDrain } : State).reads tpDrain.delim [] [] ∧
    ({ decoding .drain [] [] [.deadline] with cfg := tpDrain } : State).dec = some ⟨.drain, []⟩ ∧
    ({ exchangeOf .exec [0xC0#8] [.rx] with cfg := tpDrain, dec := some ⟨.drain, []⟩ } : State).reads tpDrain.delim [] [] ∧
    exchanging (some .exec) = true := by decide

/-- LinkSymbolsMoveTheDecoder: with no DEC; hunting; in a frame, direct and in an EXEC; the bytes next to the special ones;
both values of `FRAMING_RESYNC`. -/
theorem witness_symbol_operands :
    tp.WF ∧ conn.dec = none ∧ tpDrain.WF ∧ tpDrain.resync = .drain ∧ tp.delim ≠ tp.escDelim ∧ tp.delim ≠ tp.escEsc ∧
    (decoding .hunt [] [] []).dec = some ⟨.hunt, []⟩ ∧ (decoding .data [] [] []).dec = some ⟨.data, []⟩ ∧
    (decoding .data [] [] []).op = some .dec ∧ (0xC1#8 : Byte) ≠ tp.delim ∧ (0xC1#8 : Byte) ≠ tp.esc ∧
    (0xDE#8 : Byte) ≠ tp.escDelim ∧ (0xDE#8 : Byte) ≠ tp.escEsc ∧ tp.resync = .immediate ∧
    exchanging (exchangeOf .readreg [] []).op = true := by decide

/-- DeadlineRaisesTimeout, direct in each decoder state and in an EXEC. -/
theorem witness_deadline :
    (decoding .hunt [] [] [.deadline]).dec = some ⟨.hunt, []⟩ ∧ (decoding .escaped [] [] [.deadline]).op = some .dec ∧
    (decoding .escaped [] [] [.deadline]).events = .deadline :: [] ∧
    exchanging (exchangeOf .exec [] [.deadline]).op = true ∧ (exchangeOf .exec [] [.deadline]).dec = some decStart := by
  decide

/-- ReadFailureIsFatal, in a direct DEC and in an EXEC, and each event that nobody waits for. -/
theorem witness_read_failure :
    (decoding .data [0x05#8] [] [.failRead]).dec = some ⟨.data, [0x05#8]⟩ ∧
    (decoding .data [0x05#8] [] [.failRead]).handle.isSome = true ∧
    (exchangeOf .exec [] [.failRead]).dec = some decStart ∧ (exchangeOf .exec [] [.failRead]).handle.isSome = true ∧
    ({ conn with events := [.failRead] } : State).dec = none ∧ ({ conn with events := [.settle] } : State).seq = none ∧
    ({ conn with events := [.retx] } : State).tx ≠ some .wait ∧
    ({ conn with events := [.lateRetx 0] } : State).late[0]? = none ∧
    ({ conn with events := [.failLine] } : State).events = .failLine :: [] := by decide

/-- ListDecoderIsTheMachine; RoundTripBehindGarbage behind garbage without `DELIM` and with it. -/
theorem witness_garbage :
    tp.resync = .immediate ∧ tp.WF ∧ tp.delim ∉ [0xFF#8, 0xDB#8] ∧ tp.delim ∈ [0xFF#8, 0xC0#8] := by decide

/-- DirectDecComputesDecRun: a frame, a malformed escape, and no end. -/
theorem witness_direct_dec :
    tp.WF ∧ (decoding .hunt [] [0xC0#8, 0x05#8, 0xC0#8, 0xAA#8] [.rx, .rx, .rx]).receiving ∧
    decRun tp decStart [0xC0#8, 0x05#8, 0xC0#8, 0xAA#8] = (.frame [0x05#8], [0xAA#8]) ∧
    decRun tp decStart [0xC0#8, 0xDB#8, 0x02#8, 0xAA#8] = (.framingError, [0xAA#8]) ∧
    decRun tp decStart [0xC0#8, 0x05#8] = (.timeoutError, []) := by decide

/-- SerProperties: two Commands of the longest payload, equal wire forms, and the two ends of the checksum. -/
theorem witness_command :
    Command.WF ⟨0x02#8, 0#32, zeros 65535⟩ ∧
    serialise ⟨0x02#8, 0#32, zeros 65535⟩ = serialise ⟨0x02#8, 0#32, zeros 65535⟩ ∧ 4 ≤ 4 ∧ 7 ≤ 7 := by
  simp [Command.WF, length_zeros]

/-- ParseExtractsTheFields: one byte short, a wrong direction marker, and the shortest response. -/
theorem witness_parse :
    conn.idle ∧ (reply.take 9).length < 8 + tp.nStatus ∧ (0x02#8 :: reply.tail)[0]? ≠ some 0x01#8 ∧
    8 + tp.nStatus ≤ reply.length ∧ reply[0]? = some 0x01#8 := by decide

/-- ParseReadsOnlyItsFields. -/
theorem witness_status : ([0x01#8, 0x05#8] : Bytes).length = tp.nStatus := by decide

/-- RequestFormsEnterTxq and, where the write fails, WriteFailureIsFatal, with an operation running and without. -/
theorem witness_writing :
    synced.canWrite ∧ ¬ synced.callFails .failWrite ∧ (zeros 65535).length ≤ 65535 ∧ synced.psState ≠ .failed ∧
    synced.handle.isSome = true ∧
    commandOf tp (.reqSync 0#32 []) = some ⟨0x08#8, 0#32, []⟩ ∧ Command.WF ⟨0x08#8, 0#32, []⟩ ∧
    State.callFails .failWrite { synced with events := [.failWrite] } ∧ synced.op = none ∧
    (exchangeOf .exec [] [.failWrite]).callFails .failWrite ∧ (exchangeOf .exec [] [.failWrite]).op.isSome = true := by
  simp only [length_zeros]; decide

/-- MatchingReplyEndsTheExchange in EXEC, SYNC and READREG; MismatchedReplyProlongsTheLoop. -/
theorem witness_reply :
    exchanging (exchangeOf .exec [] []).op = true ∧ exchanging (exchangeOf .sync [] []).op = true ∧
    exchanging (exchangeOf .readreg [] []).op = true ∧ (exchangeOf .exec [] []).ex = some rd50 ∧
    responseParts tp (.respReadReg 2#16 ⟨1#8, 2#8, 3#8, 4#8⟩ [] [0#8, 0#8]) =
      some (rd50.cmd.opcode, ⟨1#8, 2#8, 3#8, 4#8⟩, [0#8, 0#8]) ∧
    responseParts tp (.respSync 2#16 ⟨1#8, 2#8, 3#8, 4#8⟩ [] [0#8, 0#8]) =
      some (0x08#8, ⟨1#8, 2#8, 3#8, 4#8⟩, [0#8, 0#8]) ∧ (0x08#8 : Byte) ≠ rd50.cmd.opcode ∧
    ([0#8, 0#8] : Bytes).length = tp.nStatus := by decide

/-- IllegalMessageIsParseError, in an EXEC and outside one. -/
theorem witness_illegal :
    (Instr.msgIllegal (reply.take 9)).wf tp = true ∧ (Instr.msgIllegal (0x00#8 :: reply.tail)).wf tp = true ∧
    exchanging (exchangeOf .exec [] []).op = true ∧ (exchangeOf .exec [] []).ex = some rd50 ∧ conn.idle ∧
    responseParts tp (.respGeneric 0x77#8 2#16 ⟨0#8, 0#8, 0#8, 0#8⟩ [] [0#8, 0#8]) =
      some (0x77#8, ⟨0#8, 0#8, 0#8, 0#8⟩, [0#8, 0#8]) := by decide

/-- SettleAppliesTheSecondPattern; SettleEndsTheResetSequence in RSTSEQ and in SYNC. -/
theorem witness_settle :
    ({ conn with op := some .rstseq, seq := some .s1, events := [.settle] } : State).seq = some .s1 ∧
    conn.handle.isSome = true ∧ ¬ State.callFails .failLine { conn with events := [.take] } ∧
    State.callFails .failLine { conn with events := [.failLine] } ∧
    ({ conn with op := some .rstseq, seq := some .s2, events := [.settle] } : State).op = some .rstseq ∧
    ({ conn with op := some .sync, seq := some .s2, events := [.settle] } : State).seq = some .s2 := by decide

/-- LinesMoveOnlyThroughSetlines, TxqGrowsByWholeFrames, CompletionSignalHasOneWriter, LateCopiesAreWrittenOnce: a step that
answers a next state, from lines that agree; one in which a late copy is written; one of LC's operations. -/
theorem witness_any_step :
    step { conn with events := [.deadline, .take] } = .next conn ∧ conn.linesAgree ∧ conn.psState ≠ .failed ∧
    State.upcoming { conn with events := [.take] } ≠ .rx ∧ State.upcoming { withLate with events := [.late 0] } = .late 0 ∧
    step { conn with op := some .rstseq, seq := some .s2, events := [.settle, .take] } =
      .next { conn with res := some .ok } ∧
    ∃ t, step { withLate with events := [.late 0, .take] } = .next t ∧ t.txq ≠ withLate.txq :=
  ⟨rfl, by decide, by decide, by decide, by decide, rfl, _, rfl, by decide⟩

/-- LateCopiesAreWrittenOnce, its last clause: a program that has returned and an event that still comes. A request still to
come, or no result yet, is a run that is not over. -/
theorem witness_run_over :
    State.Inv { conn with res := some .ok } ∧ State.runOver { conn with res := some .ok } ∧
    ({ conn with res := some .ok } : State).events ≠ [] ∧ step { conn with res := some .ok } = .next { conn with
      res := some .ok, events := [] } ∧
    ¬ State.reset.runOver ∧ ¬ State.runOver { conn with res := some .ok, events := [.request .mksync] } := by
  refine ⟨conn_inv, ⟨⟨rfl, rfl, fun i h => by simp [conn] at h⟩, rfl, by decide⟩, by decide, rfl, ?_, ?_⟩
  · rintro ⟨⟨_, h, _⟩, _⟩
    simp [State.reset] at h
  · rintro ⟨⟨_, _, h⟩, _⟩
    exact h .mksync (by simp)

/-- RxqIsConsumedOnlyByDec, each clause: a byte arrives; a running DEC's turn; a turn with no DEC, and one with a payload
waiting; another event. -/
theorem witness_rxq :
    State.upcoming { conn with events := [.arrive 0x05#8] } = .arrive 0x05#8 ∧
    (decoding .data [] [0x05#8] [.rx]).upcoming = .rx ∧ (decoding .data [] [0x05#8] [.rx]).dec.isSome = true ∧
    (decoding .data [] [0x05#8] [.rx]).rxMsg = none ∧
    (next? (step (decoding .data [] [0x05#8] [.rx]))).map State.rxq = some [] ∧
    (∀ b, State.upcoming { conn with events := [.rx] } ≠ .arrive b) ∧ conn.dec = none ∧
    ({ exchangeOf .exec [] [.rx] with dec := none, rxMsg := some reply } : State).rxMsg ≠ none ∧
    (∀ b, conn.upcoming ≠ .arrive b) ∧ conn.upcoming ≠ .rx :=
  ⟨rfl, rfl, rfl, rfl, by decide, fun _ => nofun, rfl, by decide, fun _ => nofun, by decide⟩

/-- ConnectOpensOrFails, both ways. -/
theorem witness_disconnected :
    State.reset.handleInv ∧ State.reset.op = none ∧ State.reset.psState = .disconnected ∧
    ¬ State.callFails .failOpen { State.reset with events := [.take] } ∧
    State.callFails .failOpen { State.reset with events := [.failOpen] } := by decide

/-- ExecStartsBothAgents, with the longest payload. -/
theorem witness_synced :
    synced.idle ∧ synced.psState = .synced ∧ synced.handle.isSome = true ∧ (zeros 65535).length ≤ 65535 := by
  simp only [length_zeros]; decide

/-- OperationsAreRefusedOutsideTheirState: failed, busy, and idle in each session state that a clause excludes. -/
theorem witness_refused :
    layerOf .sync = .operation ∧ ({ conn with psState := .failed } : State).psState = .failed ∧
    (exchangeOf .exec [] []).psState ≠ .failed ∧ (exchangeOf .exec [] []).op ≠ none ∧
    conn.idle ∧ conn.psState ≠ .disconnected ∧ conn.psState ≠ .synced ∧ synced.idle ∧ synced.psState ≠ .connected ∧
    State.reset.idle ∧ State.reset.psState = .disconnected := by decide

/-- TransmitterLoop, each of its clauses. -/
theorem witness_transmitter :
    (exchangeOf .exec [] [.tx]).tx = some .test ∧ (exchangeOf .exec [] [.tx]).exDone = some false ∧
    (exchangeOf .exec [] [.tx]).ex = some rd50 ∧
    ({ exchangeOf .exec [] [.tx, .take] with tx := some .write } : State).canWrite ∧
    ¬ State.callFails .failWrite { exchangeOf .exec [] [.take] with tx := some .write } ∧
    ({ exchangeOf .exec [] [.retx] with tx := some .wait } : State).tx = some .wait ∧
    ({ synced with late := [⟨[0xC0#8], .write⟩], events := [.late 0] } : State).late[0]? = some ⟨[0xC0#8], .write⟩ ∧
    ({ synced with late := [⟨[0xC0#8], .wait⟩], events := [.lateRetx 0] } : State).late[0]? = some ⟨[0xC0#8], .wait⟩ ∧
    ({ synced with late := [⟨[0xC0#8], .test⟩], events := [.late 0] } : State).late[0]? = some ⟨[0xC0#8], .test⟩ := by decide

/-- SyncSucceedsThroughNoise: one byte of noise, the shortest SYNC reply, one byte after it. -/
def syncRun : State :=
  { conn with
    rxq := [0xFF#8] ++ encFrame tp syncReply ++ [0xAA#8]
    events := .request .sync :: .settle :: .settle :: (List.replicate (1 + (encFrame tp syncReply).length + 1) .rx ++ []) }

theorem witness_sync_run :
    tp.WF ∧ syncRun.op = none ∧ syncRun.psState = .connected ∧ syncRun.handle.isSome = true ∧
    tp.delim ∉ [0xFF#8] ∧
    syncRun.rxq = [0xFF#8] ++ encFrame syncRun.cfg syncReply ++ [0xAA#8] ∧
    parseResponse tp syncReply = .ok ⟨0x08#8, ⟨0#8, 0#8, 0#8, 0#8⟩, [0#8, 0#8], syncReply⟩ ∧ (0x08#8 : Byte) = tp.opSync ∧
    syncRun.events = .request .sync :: .settle :: .settle ::
      (List.replicate ([0xFF#8].length + (encFrame syncRun.cfg syncReply).length + 1) .rx ++ []) :=
  ⟨by decide, rfl, rfl, rfl, by decide, rfl, rfl, rfl, rfl⟩

/-- ReadregReturnsAnAlignedReply: one byte of noise, a SYNC reply and the reply of V-W20. -/
def readregRun : State :=
  exchangeOf .readreg ([0xFF#8] ++ [syncReply].flatMap (encFrame tp) ++ encFrame tp reply ++ [])
    (List.replicate (1 + ([syncReply].map fun f' => (encFrame tp f').length + 1).sum + (encFrame tp reply).length + 1)
      .rx ++ [])

theorem witness_readreg_run :
    tp.WF ∧ readregRun.op = some .readreg ∧ readregRun.ex = some rd50 ∧ readregRun.dec = some decStart ∧
    readregRun.receiving ∧ tp.delim ∉ [0xFF#8] ∧
    readregRun.rxq = [0xFF#8] ++ [syncReply].flatMap (encFrame readregRun.cfg) ++ encFrame readregRun.cfg reply ++ [] ∧
    parseResponse tp syncReply = .ok ⟨0x08#8, ⟨0#8, 0#8, 0#8, 0#8⟩, [0#8, 0#8], syncReply⟩ ∧
    (0x08#8 : Byte) ≠ rd50.cmd.opcode ∧
    parseResponse tp reply = .ok ⟨0x0A#8, ⟨1#8, 2#8, 3#8, 4#8⟩, [0#8, 0#8], reply⟩ ∧ (0x0A#8 : Byte) = rd50.cmd.opcode ∧
    readregRun.events = List.replicate ([0xFF#8].length +
      ([syncReply].map fun f' => (encFrame readregRun.cfg f').length + 1).sum +
      (encFrame readregRun.cfg reply).length + 1) .rx ++ [] :=
  ⟨by decide, rfl, rfl, rfl, by decide, by decide, rfl, rfl, by decide, rfl, rfl, rfl⟩

/-- ExecIgnoresForeignFrames: a frame that does not parse and a SYNC reply before the reply of V-W20. -/
def execRun : State :=
  exchangeOf .exec ([[0x01#8], syncReply].flatMap (encFrame tp) ++ encFrame tp reply ++ [])
    (List.replicate (([[0x01#8], syncReply].map fun f' => (encFrame tp f').length + 1).sum + (encFrame tp reply).length + 1)
      .rx ++ [])

theorem witness_exec_run :
    tp.WF ∧ execRun.op = some .exec ∧ execRun.ex = some rd50 ∧ execRun.dec = some decStart ∧ execRun.receiving ∧
    parseResponse tp [0x01#8] = .error .parseError ∧
    parseResponse tp syncReply = .ok ⟨0x08#8, ⟨0#8, 0#8, 0#8, 0#8⟩, [0#8, 0#8], syncReply⟩ ∧
    (0x08#8 : Byte) ≠ rd50.cmd.opcode ∧
    parseResponse tp reply = .ok ⟨0x0A#8, ⟨1#8, 2#8, 3#8, 4#8⟩, [0#8, 0#8], reply⟩ ∧ (0x0A#8 : Byte) = rd50.cmd.opcode ∧
    execRun.rxq = [[0x01#8], syncReply].flatMap (encFrame execRun.cfg) ++ encFrame execRun.cfg reply ++ [] :=
  ⟨by decide, rfl, rfl, rfl, by decide, rfl, rfl, by decide, rfl, rfl, rfl⟩

/-- TimeoutNeverEndsAnExchange. -/
theorem witness_timeout_run :
    exchanging (exchangeOf .exec [] []).op = true ∧ (exchangeOf .exec [] []).ex = some rd50 ∧
    (exchangeOf .exec [] []).exDone = some false ∧
    (exchangeOf .exec [] []).tx = some .test ∧ (exchangeOf .exec [] []).dec = some decStart ∧
    (exchangeOf .exec [] []).rxMsg = none ∧ (exchangeOf .exec [] []).canWrite := by decide

end Sys2Proof.Tests
end

section
/-! PROOFS. The state after reset (10_state.md R30, R32). -/

namespace Sys2Proof.Machine

/-- Settles O1: `State.reset` gives each of the seven fields the value that is claimed. -/
theorem resetIsDisconnected : Obligations.ResetIsDisconnected :=
  ⟨rfl, rfl, rfl, rfl, rfl, rfl, rfl⟩

end Sys2Proof.Machine
end

section
/-! PROOFS. The frame codec (40_framecodec.md): ENC, and DEC at one byte. -/

namespace Sys2Proof.Machine

/-! ### ENC -/

/-- An operation that answers at once in an idle state changes nothing but the result. -/
theorem State.finish_of_idle {s : State} (h : s.idle) (r : Result) : s.finish r = { s with res := some r } := by
  rw [State.finish, ← h.1]

theorem execEnc_of_idle {s : State} (h : s.idle) (p : Bytes) :
    exec (.enc p) s = .next { s with res := some (.bytes (encFrame s.cfg p)) } := by
  rw [exec, execEnc, whenIdle_of_idle h, State.finish_of_idle h]

theorem encBody_eq_flatMap (P : Params) (p : Bytes) : encBody P p = p.flatMap (encByte P) := by
  induction p with
  | nil => rfl
  | cons b p ih => rw [encBody, ih, List.flatMap_cons]

/-- Settles O14: ENC's result is `encFrame`, whose body is `encByte` of each payload byte. -/
theorem encWrapsAndEscapes : Obligations.EncWrapsAndEscapes := by
  intro p s hidle
  rw [execEnc_of_idle hidle, encFrame, encBody_eq_flatMap]
  rfl

/-! ### The decoder's step on one byte -/

theorem decByte_hunt (P : Params) (buf : Bytes) (b : Byte) :
    decByte P ⟨.hunt, buf⟩ b = .more ⟨if b = P.delim then .data else .hunt, buf⟩ := by
  by_cases h : b = P.delim <;> simp [decByte, h]

theorem decByte_data_esc {P : Params} (hP : P.WF) (buf : Bytes) :
    decByte P ⟨.data, buf⟩ P.esc = .more ⟨.escaped, buf⟩ := by
  have hne : P.esc ≠ P.delim := hP.1.symm
  simp [decByte, hne]

theorem decByte_escaped_malformed {P : Params} {b : Byte} (buf : Bytes) (hP : P.resync = .immediate)
    (hd : b ≠ P.escDelim) (he : b ≠ P.escEsc) : decByte P ⟨.escaped, buf⟩ b = .framing := by
  simp [decByte, hd, he, hP]

/-! ### The running DEC's turn -/

theorem feed_of_more {s : State} {d d' : Decoder} {b : Byte} (hd : s.dec = some d)
    (hb : decByte s.cfg d b = .more d') : feed b s = .next { s with dec := some d' } := by
  simp [feed, hd, hb]

theorem feed_of_framing {s : State} {d : Decoder} {b : Byte} (hd : s.dec = some d)
    (hb : decByte s.cfg d b = .framing) : feed b s = decError .framingError s := by
  simp [feed, hd, hb]

theorem decError_direct {s : State} (k : ErrorKind) (h : s.op = some .dec) :
    decError k s = .next { s with dec := none, op := none, res := some (.error k) } := by
  simp [decError, exchanging, h, State.finish]

theorem decError_exchanging {s : State} (k : ErrorKind) (h : exchanging s.op = true) :
    decError k s = .next { s with dec := some ⟨.hunt, []⟩, rxMsg := none } := by
  rw [decError, if_pos h, State.nextAttempt, decStart]

/-- Outside a frame `DELIM` runs LINK.DELIM and any other byte is fed as it is: either way DEC takes the byte that was read,
under any parameters. -/
theorem fetchSymbol_hunt (buf : Bytes) (b : Byte) (s : State) : (fetchSymbol ⟨.hunt, buf⟩ b s).out = feed b s := by
  by_cases h : b = s.cfg.delim
  · subst h
    simp [fetchSymbol, Action.out, exec, execLinkDelim]
  · simp [fetchSymbol, Action.out, h]

/-- The turn of a DEC that has a byte to read reads a symbol at that byte, under any parameters. -/
theorem step_reads_symbol {s : State} {b : Byte} {r : Bytes} {ev : List Event} {d : Decoder} (h : s.reads b r ev)
    (hd : s.dec = some d) : step s = (fetchSymbol d b { s with events := ev, rxq := r }).out := by
  obtain ⟨hev, hrxq, hmsg, hhandle⟩ := h
  have hopen : s.handle.isNone = false := by simpa using hhandle
  rw [step_cons hev]
  simp [act, receiverTurn, hmsg, hd, hopen, hrxq]

/-- Settles O17: whatever the byte, the hunting DEC takes it and goes on. -/
theorem huntDiscardsToDelimiter : Obligations.HuntDiscardsToDelimiter := by
  intro s b r buf ev hreads hdec
  rw [step_reads_symbol hreads hdec, fetchSymbol_hunt]
  exact feed_of_more hdec (decByte_hunt s.cfg buf b)

/-- Settles O18: `ESC` is no `DELIM`, so the DEC goes on to `ESCAPED`. -/
theorem escapeIntroducerIsRemembered : Obligations.EscapeIntroducerIsRemembered := by
  intro s r buf ev hcfg hreads hdec
  rw [step_reads hcfg hreads hdec]
  exact feed_of_more hdec (decByte_data_esc hcfg buf)

/-- Settles O21: the DEC raises FramingError at the byte, to the caller or to the receiver, which starts the next DEC. -/
theorem malformedEscapeIsFramingError : Obligations.MalformedEscapeIsFramingError := by
  intro s b r buf ev hcfg himm hreads hdec hd he
  have hframing : step s = decError .framingError { s with events := ev, rxq := r } := by
    rw [step_reads hcfg hreads hdec]
    exact feed_of_framing hdec (decByte_escaped_malformed buf himm hd he)
  rw [hframing]
  exact ⟨fun hop => decError_direct .framingError hop, fun hex => decError_exchanging .framingError hex⟩

end Sys2Proof.Machine
end

section
/-! PROOFS. Wire messages (41_wiremessage.md): the constructors, SER and PARSE. -/

namespace Sys2Proof.Machine

/-! ### The operations of WM in an idle state -/

theorem execMksync_of_idle {s : State} (h : s.idle) :
    exec .mksync s = .next { s with res := some (.command (syncCommand s.cfg)) } := by
  rw [exec, execMksync, whenIdle_of_idle h, State.finish_of_idle h]

theorem execMkrdreg_of_idle {s : State} (h : s.idle) (a : Word) :
    exec (.mkrdreg a) s = .next { s with res := some (.command (readRegCommand s.cfg a)) } := by
  rw [exec, execMkrdreg, whenIdle_of_idle h, State.finish_of_idle h]

theorem whenCommand_of_wf {c : Command} (h : c.WF) (s : State) (k : State → Out) : whenCommand c s k = k s := if_pos h

theorem execSer_of_idle {s : State} {c : Command} (h : s.idle) (hc : c.WF) :
    exec (.ser c) s = .next { s with res := some (.bytes (serialise c)) } := by
  rw [exec, execSer, whenIdle_of_idle h, whenCommand_of_wf hc, State.finish_of_idle h]

theorem execParse_of_idle {s : State} (h : s.idle) (f : Bytes) :
    exec (.parse f) s = .next { s with res := some (parseResult s.cfg f) } := by
  rw [exec, execParse, whenIdle_of_idle h, State.finish_of_idle h]

/-- Settles O29: the two Commands are `syncCommand` and `readRegCommand`, and R5 fixes the length of `SYNC_MAGIC`. -/
theorem constructorsBuildTheirCommands : Obligations.ConstructorsBuildTheirCommands := by
  intro s a hidle hcfg
  obtain ⟨-, -, -, -, -, -, -, hmagic, -⟩ := hcfg
  exact ⟨execMksync_of_idle hidle, hmagic, execMkrdreg_of_idle hidle a⟩

/-! ### SER -/

/-- The two bytes of a 16-bit length, low byte first, as numbers (00_scope.md section 5.1). -/
theorem le16_ofNat (n : Nat) : le16 (BitVec.ofNat 16 n) = [BitVec.ofNat 8 n, BitVec.ofNat 8 (n / 256)] := by
  have hlow : (BitVec.ofNat 16 n).extractLsb' 0 8 = BitVec.ofNat 8 n := by
    apply BitVec.eq_of_toNat_eq
    simp only [BitVec.extractLsb'_toNat, BitVec.toNat_ofNat, Nat.shiftRight_zero]
    omega
  have hhigh : (BitVec.ofNat 16 n).extractLsb' 8 8 = BitVec.ofNat 8 (n / 256) := by
    apply BitVec.eq_of_toNat_eq
    simp only [BitVec.extractLsb'_toNat, BitVec.toNat_ofNat, Nat.shiftRight_eq_div_pow]
    omega
  rw [le16, hlow, hhigh]

/-- Settles O30: SER's result is `serialise`, whose length field is the payload's length in two bytes. -/
theorem serLaysOutTheRequest : Obligations.SerLaysOutTheRequest := by
  intro s op ck pl hidle hlen
  rw [execSer_of_idle hidle hlen, serialise, le16_ofNat]
  rfl

/-! ### PARSE -/

theorem parseResponse_short {P : Params} {f : Bytes} (h : f.length < minRespLen P) :
    parseResponse P f = .error .parseError := if_pos h

/-- A payload of at least the minimum length has a whole header, and its direction marker decides (R131). -/
theorem parseResponse_header {P : Params} {f : Bytes} (h : minRespLen P ≤ f.length) :
    ∃ d op l0 l1 v0 v1 v2 v3 r, f = d :: op :: l0 :: l1 :: v0 :: v1 :: v2 :: v3 :: r ∧
      parseResponse P f =
        if d = dirResp then .ok ⟨op, ⟨v0, v1, v2, v3⟩, f.drop (f.length - P.nStatus), f⟩ else .error .parseError := by
  have hheader : 8 ≤ f.length := by rw [minRespLen] at h; omega
  match f, hheader with
  | d :: op :: l0 :: l1 :: v0 :: v1 :: v2 :: v3 :: r, _ =>
    exact ⟨d, op, l0, l1, v0, v1, v2, v3, r, rfl, if_neg (Nat.not_lt.mpr h)⟩

theorem parseResponse_wrongDirection {P : Params} {f : Bytes} (h : f[0]? ≠ some dirResp) :
    parseResponse P f = .error .parseError := by
  by_cases hshort : f.length < minRespLen P
  · exact parseResponse_short hshort
  · obtain ⟨d, op, l0, l1, v0, v1, v2, v3, r, rfl, hparse⟩ := parseResponse_header (Nat.not_lt.mp hshort)
    have hd : d ≠ dirResp := fun e => h (congrArg some e)
    rw [hparse, if_neg hd]

/-- PARSE of a payload that is long enough and has the marker of a response: each field from its place (R130). -/
theorem parseResponse_fields {P : Params} {f : Bytes} (h : minRespLen P ≤ f.length) (hd : f[0]? = some dirResp) :
    ∃ x, parseResponse P f = .ok x ∧ f[1]? = some x.opcode ∧
      f[4]? = some x.value.b0 ∧ f[5]? = some x.value.b1 ∧ f[6]? = some x.value.b2 ∧ f[7]? = some x.value.b3 ∧
      x.status = f.drop (f.length - P.nStatus) ∧ x.raw = f := by
  obtain ⟨d, op, l0, l1, v0, v1, v2, v3, r, rfl, hparse⟩ := parseResponse_header h
  have hd : d = dirResp := Option.some.inj hd
  exact ⟨_, hparse.trans (if_pos hd), rfl, rfl, rfl, rfl, rfl, rfl, rfl⟩

/-- Settles O33: the two ways to ParseError, and the fields of what is long enough and rightly directed. -/
theorem parseExtractsTheFields : Obligations.ParseExtractsTheFields := by
  intro s f hidle
  rw [execParse_of_idle hidle, parseResult]
  constructor
  · intro hbad
    have herror : parseResponse s.cfg f = .error .parseError :=
      hbad.elim parseResponse_short parseResponse_wrongDirection
    rw [herror]
  · intro hlen hdir
    obtain ⟨x, hparse, hop, h4, h5, h6, h7, hstatus, hraw⟩ := parseResponse_fields hlen hdir
    have hcount : x.status.length = s.cfg.nStatus := by
      rw [hstatus, List.length_drop]
      omega
    rw [hparse]
    exact ⟨x, rfl, hop, h4, h5, h6, h7, hstatus, hcount, hraw⟩

end Sys2Proof.Machine
end

section
/-! PROOFS. The line controller (42_linecontroller.md): SETLINES, the settle event, and which steps move the lines. -/

namespace Sys2Proof.Machine

/-! ### SETLINES -/

/-- SETLINES, where it is allowed, makes its line call and returns, or takes a transport error. -/
theorem execSetlines_of_open {s : State} (d r : Bool) (hidle : s.idle) (hopen : s.isOpen) (hh : s.handle.isSome = true) :
    exec (.setlines d r) s = if s.callFails .failLine then .next s.lineFailed.transportError
      else .next { s.linesSet d r with res := some .ok } := by
  rw [exec, execSetlines, whenIdle_of_idle hidle, whenOpen, if_pos hopen, whenHandle, if_pos hh, setLines_eq,
    ← State.finish_of_idle (s := s.linesSet d r) hidle]
  split_ifs <;> rfl

/-- Settles O41: the line call succeeds and the operation returns, or it fails and the session is aborted. -/
theorem setlinesSetsBothLines : Obligations.SetlinesSetsBothLines := by
  intro s d r hidle hopen hh
  rw [execSetlines_of_open d r hidle hopen hh]
  constructor
  · intro hok
    rw [if_neg hok]
    rfl
  · intro hfails
    rw [if_pos hfails]
    exact ⟨_, rfl, rfl, rfl⟩

/-! ### The settle event -/

/-- A step that takes the settle event is the sequencer's turn. -/
theorem step_settle {s : State} {ev : List Event} (h : s.events = .settle :: ev) :
    step s = settled { s with events := ev } := by
  rw [step_cons h]
  rfl

/-- Settles O44: in `S1` the sequencer's turn is SETLINES of the second pattern. -/
theorem settleAppliesTheSecondPattern : Obligations.SettleAppliesTheSecondPattern := by
  intro s ev hev hseq hh
  rw [step_settle hev, settled_first (s := { s with events := ev }) hseq hh]
  constructor
  · intro hok
    rw [if_neg hok]
    rfl
  · intro hfails
    rw [if_pos hfails]
    exact ⟨_, rfl, rfl, rfl, rfl, rfl⟩

/-! ### Which steps move the lines -/

/-- The four line values, recorded and physical (10_state.md R16, R17). -/
def State.lines (s : State) : Bool × Bool × Bool × Bool := (s.lcDtr, s.lcRts, s.pinDtr, s.pinRts)

/-- The two byte streams. -/
def State.streams (s : State) : Bytes × Bytes := (s.rxq, s.txq)

/-- The events in whose steps LC may make its line call: the request of SETLINES, of RSTSEQ or of SYNC, and the settle event
(42_linecontroller.md R150). -/
def Event.ofLc (e : Event) : Prop :=
  (∃ d r, e = .request (.setlines d r)) ∨ e = .request .rstseq ∨ e = .request .sync ∨ e = .settle

/-- What a line call makes of the lines: it fails, and the session with it, or recorded and physical values agree after it. -/
def State.lineCallDone (t : State) : Prop := t.psState = .failed ∨ t.linesAgree

theorem lines_eq_iff {s t : State} :
    t.lines = s.lines ↔ t.lcDtr = s.lcDtr ∧ t.lcRts = s.lcRts ∧ t.pinDtr = s.pinDtr ∧ t.pinRts = s.pinRts := by
  simp [State.lines]

theorem streams_eq_iff {s t : State} : t.streams = s.streams ↔ t.rxq = s.rxq ∧ t.txq = s.txq := by
  simp [State.streams]

theorem linesAgree_of_lines_eq {s t : State} (h : t.lines = s.lines) (hs : s.linesAgree) : t.linesAgree := by
  obtain ⟨hlcd, hlcr, hpd, hpr⟩ := lines_eq_iff.mp h
  rw [State.linesAgree, hlcd, hlcr, hpd, hpr]
  exact hs

/-! The agents' steps leave the lines as they are. -/

theorem feed_lines {b : Byte} {s t : State} (h : feed b s = .next t) : t.lines = s.lines := by
  rcases feed_next h with ⟨-, rfl⟩ | ⟨d, -, ⟨d', rfl⟩ | ⟨-, p, rfl⟩ | ⟨-, rfl⟩ | ⟨-, r, rfl⟩⟩ <;> rfl

theorem decError_lines {k : ErrorKind} {s t : State} (h : decError k s = .next t) : t.lines = s.lines := by
  rcases decError_next h with ⟨-, rfl⟩ | ⟨-, rfl⟩ <;> rfl

theorem receive_lines {f : Bytes} {s t : State} (h : receive f s = .next t) : t.lines = s.lines := by
  rcases receive_next h with ⟨-, e, -, ⟨k, -, rfl⟩ | ⟨x, -, rfl⟩⟩ | ⟨-, rfl⟩
  · rfl
  · simp [State.lines]
  · rfl

theorem txWrite_lines {f : Bytes} {s t : State} (h : txWrite f s = .next t) : t.lines = s.lines := by
  obtain ⟨-, -, ⟨-, rfl⟩ | ⟨-, rfl⟩⟩ := txWrite_next.mp h
  · simp [State.lines]
  · rfl

theorem receiverTurn_lines {s t : State} (h : (receiverTurn s).out = .next t) : t.lines = s.lines := by
  rcases receiverTurn_next h with ⟨f, g, -, hg⟩ | ⟨-, -, rfl⟩ | ⟨d, -, -, -, ⟨-, rfl⟩ | ⟨b, r, b', -, hb⟩⟩
  · exact receive_lines (s := { s with rxMsg := none }) hg
  · rfl
  · rfl
  · exact feed_lines (s := { s with rxq := r }) hb

theorem transmitterTurn_lines {s t : State} (h : (transmitterTurn s).out = .next t) : t.lines = s.lines := by
  rcases transmitterTurn_next h with rfl | ⟨d, -, -, rfl⟩ | ⟨e, -, -, hw⟩
  · rfl
  · rfl
  · exact txWrite_lines (s := { s with tx := some .wait }) hw

theorem lateTurn_lines {k : Nat} {s t : State} (h : (lateTurn k s).out = .next t) : t.lines = s.lines := by
  rcases lateTurn_next h with rfl | ⟨l, -, -, rfl⟩ | ⟨l, -, -, hw⟩
  · rfl
  · rfl
  · exact txWrite_lines (s := { s with late := s.late.set k { l with pos := .wait } }) hw

/-! LC's own steps, and the other operations. -/

/-- The turn of the sequencer makes the line call of `S1`, or leaves the lines. -/
theorem settled_lines {s t : State} (h : settled s = .next t) : t.lines = s.lines ∨ t.lineCallDone := by
  rcases settled_next h with ⟨-, -, ⟨-, rfl⟩ | ⟨-, rfl⟩⟩ | ⟨-, ⟨-, rfl⟩ | ⟨-, rfl⟩⟩ | ⟨-, -, rfl⟩
  · exact .inr (.inl rfl)
  · exact .inr (.inr ⟨rfl, rfl⟩)
  · exact .inl rfl
  · exact .inl rfl
  · exact .inl rfl

theorem settled_streams {s t : State} (h : settled s = .next t) : t.streams = s.streams := by
  rcases settled_next h with ⟨-, -, ⟨-, rfl⟩ | ⟨-, rfl⟩⟩ | ⟨-, ⟨-, rfl⟩ | ⟨-, rfl⟩⟩ | ⟨-, -, rfl⟩ <;> rfl

/-- Only SETLINES, RSTSEQ and SYNC make a line call in the step of their request. -/
theorem operation_lines {i : Instr} {s t : State} (hl : layerOf i = .operation) (h : exec i s = .next t) :
    t.lines = s.lines ∨ ((Event.request i).ofLc ∧ t.lineCallDone) := by
  obtain ⟨-, hcases⟩ := operation_next hl h
  rcases hcases with ⟨r, rfl, -⟩ | ⟨-, -, -, rfl⟩ | ⟨d, r, rfl, -, -, hset⟩ | ⟨o, ho, -, -, hreset⟩ |
    ⟨p, b, -, -, ⟨-, rfl⟩ | ⟨hd, rfl⟩⟩ | ⟨c, o, -, -, -, rfl⟩
  · exact .inl rfl
  · exact .inl rfl
  · refine .inr ⟨.inl ⟨d, r, rfl⟩, ?_⟩
    rcases hset with ⟨-, rfl⟩ | ⟨-, rfl⟩
    · exact .inl rfl
    · exact .inr ⟨rfl, rfl⟩
  · have hlc : (Event.request i).ofLc := by
      rcases ho with ⟨rfl, -⟩ | ⟨rfl, -, -⟩
      · exact .inr (.inl rfl)
      · exact .inr (.inr (.inl rfl))
    refine .inr ⟨hlc, ?_⟩
    rcases hreset with ⟨-, rfl⟩ | ⟨-, rfl⟩
    · exact .inl rfl
    · exact .inr ⟨rfl, rfl⟩
  · exact .inl rfl
  · exact .inl rfl
  · exact .inl rfl

/-- The request of an operation touches no byte stream (20_memory.md R41, R43: that is its agents' work, in later steps). -/
theorem operation_streams {i : Instr} {s t : State} (hl : layerOf i = .operation) (h : exec i s = .next t) :
    t.streams = s.streams := by
  obtain ⟨-, hcases⟩ := operation_next hl h
  rcases hcases with ⟨r, rfl, -⟩ | ⟨-, -, -, rfl⟩ | ⟨d, r, -, -, -, ⟨-, rfl⟩ | ⟨-, rfl⟩⟩ |
    ⟨o, -, -, -, ⟨-, rfl⟩ | ⟨-, rfl⟩⟩ | ⟨p, b, -, -, ⟨-, rfl⟩ | ⟨hd, rfl⟩⟩ | ⟨c, o, -, -, -, rfl⟩ <;> rfl

/-! Every step. -/

/-- An event leaves the lines, or it is one of LC's and its line call has been made. -/
theorem act_lines {e : Event} {s t : State} (h : (act e s).out = .next t) :
    t.lines = s.lines ∨ (e.ofLc ∧ t.lineCallDone) :=
  act_ind (R := fun s t e => t.lines = s.lines ∨ (e.ofLc ∧ t.lineCallDone)) h
    (hreq := fun _ he hl hexec => he ▸ operation_lines hl hexec)
    (harr := fun _ _ => .inl rfl)
    (htake := fun _ => .inl rfl)
    (hrf := fun _ _ _ => .inl rfl)
    (hset := fun he hs => (settled_lines hs).imp_right fun hdone => ⟨.inr (.inr (.inr he)), hdone⟩)
    (hretx := fun _ => .inl rfl)
    (hid := fun _ _ => .inl rfl)
    (hdl := fun _ _ _ herror => .inl (decError_lines herror))
    (hrx := fun _ hturn => .inl (receiverTurn_lines hturn))
    (htx := fun _ hturn => .inl (transmitterTurn_lines hturn))
    (hlate := fun _ _ hturn => .inl (lateTurn_lines hturn))
    (hlr := fun _ _ => .inl rfl)

/-- Each of LC's events touches no byte stream. -/
theorem act_streams_of_ofLc {e : Event} {s t : State} (he : e.ofLc) (h : (act e s).out = .next t) :
    t.streams = s.streams := by
  rcases he with ⟨d, r, rfl⟩ | rfl | rfl | rfl
  · exact operation_streams (i := .setlines d r) rfl h
  · exact operation_streams (i := .rstseq) rfl h
  · exact operation_streams (i := .sync) rfl h
  · exact settled_streams h

theorem step_lines {s t : State} (h : step s = .next t) : t.lines = s.lines ∨ (s.upcoming.ofLc ∧ t.lineCallDone) :=
  act_lines (s := s.taken) ((step_out s).symm.trans h)

theorem step_streams_of_ofLc {s t : State} (he : s.upcoming.ofLc) (h : step s = .next t) : t.streams = s.streams :=
  act_streams_of_ofLc (s := s.taken) he ((step_out s).symm.trans h)

/-- Settles O46: by the two facts about every step. -/
theorem linesMoveOnlyThroughSetlines : Obligations.LinesMoveOnlyThroughSetlines := by
  intro s t h
  refine ⟨fun hsetlines hrstseq hsync hsettle => ?_, fun hlc => streams_eq_iff.mp (step_streams_of_ofLc hlc h),
    fun hagree hlive => ?_⟩
  · have hnot : ¬ s.upcoming.ofLc := by
      rintro (⟨d, r, he⟩ | he | he | he)
      · exact hsetlines d r he
      · exact hrstseq he
      · exact hsync he
      · exact hsettle he
    exact lines_eq_iff.mp ((step_lines h).resolve_right fun hmoved => hnot hmoved.1)
  · rcases step_lines h with hlines | ⟨-, hfailed | hagree'⟩
    · exact linesAgree_of_lines_eq hlines hagree
    · exact absurd hfailed hlive
    · exact hagree'

end Sys2Proof.Machine
end

section
/-! PROOFS. The receive deadline at the running DEC (40_framecodec.md R105, 60_exceptions.md R203). -/

namespace Sys2Proof.Machine

/-- Whatever the decoder's state and RXQ, the deadline at a running DEC is its TimeoutError. -/
theorem step_deadline {s : State} {d : Decoder} {ev : List Event} (h : s.events = .deadline :: ev)
    (hd : s.dec = some d) : step s = decError .timeoutError { s with events := ev } := by
  have hdec : ({ s with events := ev } : State).dec.isSome = true := by simp [hd]
  rw [step_cons h]
  exact if_pos hdec

/-- Settles O24: the DEC raises TimeoutError to the caller, or to the receiver, which starts the next DEC. -/
theorem deadlineRaisesTimeout : Obligations.DeadlineRaisesTimeout := by
  intro s d ev h hd
  rw [step_deadline h hd]
  exact ⟨fun hop => decError_direct .timeoutError hop, fun hex => decError_exchanging .timeoutError hex⟩

end Sys2Proof.Machine
end

section
/-! PROOFS. What the invariant (Safety.lean) says of a state by the operation that runs, and the ways to establish it: an
aborted session, an open session, an exchange whose agents move. -/

namespace Sys2Proof.Machine

/-! ### The aborted session (60_exceptions.md R206) -/

/-- The session has been aborted: it has failed and nothing that belongs to an operation is left. -/
def State.aborted (s : State) : Prop :=
  s.psState = .failed ∧ s.op = none ∧ s.ex = none ∧ s.quiet ∧ s.resting ∧ s.late = []

theorem transportError_aborted (s : State) : s.transportError.aborted := ⟨rfl, rfl, rfl, ⟨rfl, rfl, rfl⟩, rfl, rfl⟩

theorem agentError_aborted (s : State) : s.agentError.aborted := by
  simp [State.aborted, State.quiet, State.resting]

theorem inv_of_aborted {s : State} (hw : s.cfg.WF) (h : s.aborted) : s.Inv := by
  obtain ⟨hfailed, hop, hex, hquiet, hrest, hlate⟩ := h
  refine ⟨hw, ?_, ?_, ?_, ?_, ?_, ?_⟩
  · rw [State.opInv, hop]
    exact ⟨hquiet, hrest⟩
  · simp [State.handleInv, State.isOpen, hfailed]
  · simp [State.framesInv, hex, hlate]
  · exact fun _ => ⟨hex, fun hlive => absurd hfailed hlive⟩
  · simp [State.decoderInv, hquiet.1]
  · simp [State.closedInv, hfailed, hop, hlate]

/-! ### The open session -/

/-- The frames that late transmitters hold are frames of Commands (20_memory.md R41). -/
def State.lateFramesInv (s : State) : Prop :=
  ∀ t ∈ s.late, ∃ c : Command, c.WF ∧ t.frame = commandFrame s.cfg c

/-- While the session is open its tag asks nothing but an open handle of the invariant. -/
theorem inv_of_open {s : State} (hw : s.cfg.WF) (hopen : s.isOpen) (hh : s.handle.isSome = true) (hop : s.opInv)
    (hframes : s.framesInv) (hdone : s.doneInv) (hdec : s.decoderInv) : s.Inv := by
  refine ⟨hw, hop, ⟨fun hd => ?_, fun _ => hh⟩, hframes, hdone, hdec, fun hd => ?_, fun hf => ?_⟩
  · rcases hopen with ho | ho <;> simp [ho] at hd
  · rcases hopen with ho | ho <;> simp [ho] at hd
  · rcases hopen with ho | ho <;> simp [ho] at hf

/-- An open session in which nothing runs. -/
theorem inv_of_open_idle {s : State} (hw : s.cfg.WF) (hopen : s.isOpen) (hh : s.handle.isSome = true) (hop : s.op = none)
    (hquiet : s.quiet) (hrest : s.resting) (hex : s.ex = none) (hdone : s.exDone ≠ some false)
    (hlate : s.lateFramesInv) : s.Inv := by
  refine inv_of_open hw hopen hh ?_ ⟨by simp [hex], hlate⟩ (fun _ => ⟨hex, fun _ => hdone⟩)
    (by simp [State.decoderInv, hquiet.1])
  rw [State.opInv, hop]
  exact ⟨hquiet, hrest⟩

theorem State.Inv.quiet_of_idle {s : State} (h : s.Inv) (hop : s.op = none) : s.quiet ∧ s.resting := by
  obtain ⟨-, hopInv, -⟩ := h
  rwa [State.opInv, hop] at hopInv

/-- Where no EXEC runs and the session lives, no exchange is left and its `EX.done`, if there was one, is true. -/
theorem State.Inv.noExchange {s : State} (h : s.Inv) (hx : exchanging s.op = false) (hlive : s.psState ≠ .failed) :
    s.ex = none ∧ s.exDone ≠ some false := by
  obtain ⟨-, -, -, -, hdone, -⟩ := h
  exact ⟨(hdone hx).1, (hdone hx).2 hlive⟩

theorem State.Inv.lateFrames {s : State} (h : s.Inv) : s.lateFramesInv := by
  obtain ⟨-, -, -, ⟨-, hlate⟩, -⟩ := h
  exact hlate

theorem State.isOpen_live {s : State} (h : s.isOpen) : s.psState ≠ .failed := by
  rcases h with h | h <;> simp [h]

/-- An operation runs only in an open session (43_session.md R171). -/
theorem State.Inv.open_of_running {s : State} (h : s.Inv) (hop : s.op ≠ none) : s.isOpen := by
  obtain ⟨-, hopInv, -⟩ := h
  rw [State.opInv] at hopInv
  split at hopInv
  case h_1 hnone => exact absurd hnone hop
  case h_2 => exact hopInv.1
  case h_3 => exact hopInv.1
  case h_4 => exact .inl hopInv.1
  case h_5 => exact .inr hopInv.1
  case h_6 => exact .inr hopInv.1

theorem State.Inv.handle_of_open {s : State} (h : s.Inv) (hopen : s.isOpen) : s.handle.isSome = true := by
  obtain ⟨-, -, ⟨-, hhandle⟩, -⟩ := h
  exact hhandle hopen

theorem State.Inv.handle_of_running {s : State} (h : s.Inv) (hop : s.op ≠ none) : s.handle.isSome = true :=
  h.handle_of_open (h.open_of_running hop)

/-- Late transmitters are there in an open session only (60_exceptions.md R206). -/
theorem State.Inv.open_of_late {s : State} (h : s.Inv) (hlate : s.late ≠ []) : s.isOpen := by
  obtain ⟨-, -, -, -, -, -, hdisc, hfailed⟩ := h
  cases hp : s.psState with
  | disconnected => exact absurd (hdisc hp).2.1 hlate
  | connected => exact .inl hp
  | synced => exact .inr hp
  | failed => exact absurd (hfailed hp).2 hlate

/-! ### Agents at work -/

/-- What the running operation keeps true of an exchange `e` beside its two agents: SYNC has driven the lines and waits for
the reply to its sync command, READREG for the reply to a read of some register (43_session.md R175, R195). -/
def State.exchangeFor (s : State) (e : Exchange) : Prop :=
  s.resting ∧
  match s.op with
  | some .sync => s.psState = .connected ∧ s.linesAre true false ∧ e.cmd = syncCommand s.cfg
  | some .exec => s.psState = .synced
  | some .readreg => s.psState = .synced ∧ ∃ a, e.cmd = readRegCommand s.cfg a
  | _ => False

theorem State.exchangeFor.exchanging {s : State} {e : Exchange} (h : s.exchangeFor e) : exchanging s.op = true := by
  obtain ⟨-, hfor⟩ := h
  split at hfor
  case h_1 hop => rw [hop]; rfl
  case h_2 hop => rw [hop]; rfl
  case h_3 hop => rw [hop]; rfl
  case h_4 => exact hfor.elim

theorem State.exchangeFor.isOpen {s : State} {e : Exchange} (h : s.exchangeFor e) : s.isOpen := by
  obtain ⟨-, hfor⟩ := h
  split at hfor
  case h_1 => exact .inl hfor.1
  case h_2 => exact .inr hfor
  case h_3 => exact .inr hfor.1
  case h_4 => exact hfor.elim

theorem opInv_of_exchange {s : State} {e : Exchange} (hx : s.inExchange e) (hfor : s.exchangeFor e) : s.opInv := by
  obtain ⟨hrest, hfor⟩ := hfor
  rw [State.opInv]
  split at hfor
  case h_1 hop => rw [hop]; exact ⟨hfor.1, .inr ⟨hrest, hfor.2.1, e, hx, hfor.2.2⟩⟩
  case h_2 hop => rw [hop]; exact ⟨hfor, hrest, e, hx⟩
  case h_3 hop => rw [hop]; exact ⟨hfor.1, hrest, e, hx, hfor.2⟩
  case h_4 => exact hfor.elim

/-- Agents at work are the DEC of a DEC requested directly, or the two agents of an exchange. -/
theorem State.Inv.busy {s : State} (h : s.Inv) (hbusy : ¬ s.quiet) :
    (s.op = some .dec ∧ s.dec.isSome ∧ s.rxMsg = none ∧ s.tx = none ∧ s.resting) ∨
    ∃ e, s.inExchange e ∧ s.exchangeFor e := by
  obtain ⟨-, hopInv, -⟩ := h
  rw [State.opInv] at hopInv
  unfold State.exchangeFor
  split at hopInv
  case h_1 => exact absurd hopInv.1 hbusy
  case h_2 hop => exact .inl ⟨hop, hopInv.2⟩
  case h_3 => exact absurd hopInv.2.1 hbusy
  case h_4 hop =>
    obtain ⟨hconn, hreset | ⟨hrest, hlines, e, hx, hcmd⟩⟩ := hopInv
    · exact absurd hreset.1 hbusy
    · rw [hop]; exact .inr ⟨e, hx, hrest, hconn, hlines, hcmd⟩
  case h_5 hop =>
    obtain ⟨hsynced, hrest, e, hx⟩ := hopInv
    rw [hop]; exact .inr ⟨e, hx, hrest, hsynced⟩
  case h_6 hop =>
    obtain ⟨hsynced, hrest, e, hx, hcmd⟩ := hopInv
    rw [hop]; exact .inr ⟨e, hx, hrest, hsynced, hcmd⟩

/-- A payload or a transmitter is there in an exchange only. -/
theorem State.Inv.exchange {s : State} (h : s.Inv) (hbusy : s.rxMsg ≠ none ∨ s.tx ≠ none) :
    ∃ e, s.inExchange e ∧ s.exchangeFor e := by
  have hnot : ¬ s.quiet := fun hq => hbusy.elim (fun hm => hm hq.2.1) (fun ht => ht hq.2.2)
  refine (h.busy hnot).resolve_left ?_
  rintro ⟨-, -, hmsg, htx, -⟩
  exact hbusy.elim (fun hm => hm hmsg) (fun ht => ht htx)

/-- A running DEC is one requested directly or belongs to an exchange. -/
theorem State.Inv.decoding {s : State} (h : s.Inv) (hdec : s.dec ≠ none) :
    (s.op = some .dec ∧ s.rxMsg = none ∧ s.tx = none ∧ s.resting) ∨ ∃ e, s.inExchange e ∧ s.exchangeFor e :=
  (h.busy fun hq => hdec hq.1).imp_left fun ⟨hop, _, hmsg, htx, hrest⟩ => ⟨hop, hmsg, htx, hrest⟩

theorem State.Inv.running_of_busy {s : State} (h : s.Inv) (hbusy : ¬ s.quiet) : s.op ≠ none := by
  rcases h.busy hbusy with ⟨hop, -⟩ | ⟨e, -, hfor⟩
  · simp [hop]
  · intro hnone
    have := hfor.exchanging
    simp [hnone, exchanging] at this

/-- A settle wait belongs to RSTSEQ or SYNC, whose lines stand as 42_linecontroller.md R161 traces them. -/
theorem State.Inv.settling {s : State} (h : s.Inv) (hseq : s.seq ≠ none) :
    (s.op = some .rstseq ∧ s.isOpen ∨ s.op = some .sync ∧ s.psState = .connected) ∧ s.resetting := by
  obtain ⟨-, hopInv, -⟩ := h
  rw [State.opInv] at hopInv
  split at hopInv
  case h_1 => exact absurd hopInv.2 hseq
  case h_2 => exact absurd hopInv.2.2.2.2 hseq
  case h_3 hop => exact ⟨.inl ⟨hop, hopInv.1⟩, hopInv.2⟩
  case h_4 hop =>
    obtain ⟨hconn, hreset | ⟨hrest, -⟩⟩ := hopInv
    · exact ⟨.inr ⟨hop, hconn⟩, hreset⟩
    · exact absurd hrest hseq
  case h_5 => exact absurd hopInv.2.1 hseq
  case h_6 => exact absurd hopInv.2.1 hseq

/-- The agents of an exchange move: what is kept is the exchange and what a DEC's state must be. -/
theorem State.Inv.moveAgents {s : State} {e : Exchange} {d : Option Decoder} {m : Option Bytes} {x : Option TxPos}
    (h : s.Inv) (hfor : s.exchangeFor e) (hx : State.inExchange { s with dec := d, rxMsg := m, tx := x } e)
    (hdec : State.decoderInv { s with dec := d }) : State.Inv { s with dec := d, rxMsg := m, tx := x } := by
  obtain ⟨hw, -, hhandle, hframes, hdone, -, hclosed⟩ := h
  exact ⟨hw, opInv_of_exchange hx hfor, hhandle, hframes, hdone, hdec, hclosed⟩

/-- An exchange starts: its agents are as R181 sets them. -/
theorem inv_startExchange {s : State} {c : Command} (hw : s.cfg.WF) (hh : s.handle.isSome = true)
    (hlate : s.lateFramesInv) (hc : c.WF) (hfor : s.exchangeFor (newExchange s.cfg c)) : (s.startExchange c).Inv := by
  have hx : (s.startExchange c).inExchange (newExchange s.cfg c) := ⟨rfl, rfl, rfl, by simp⟩
  have hexch : exchanging (s.startExchange c).op = true := hfor.exchanging
  refine inv_of_open hw hfor.isOpen hh (opInv_of_exchange hx hfor) ⟨?_, hlate⟩ ?_ ?_
  · intro e he
    cases he
    exact ⟨hc, rfl⟩
  · intro hnot
    rw [hexch] at hnot
    contradiction
  · intro d hd
    cases hd
    exact ⟨fun _ => rfl, nofun⟩

end Sys2Proof.Machine
end

section
/-! PROOFS. Every step keeps the invariant: each agent's turn, the sequencer's, and each operation requested. -/

namespace Sys2Proof.Machine

/-! ### The decoder -/

/-- What the invariant asks of a running DEC (40_framecodec.md R99, R100, R111). -/
def Decoder.wf (P : Params) (d : Decoder) : Prop :=
  (d.st = .hunt → d.buf = []) ∧ (d.st = .drain → d.buf = [] ∧ P.resync = .drain)

theorem decoderInv_of_some {s : State} {d : Decoder} (hd : d.wf s.cfg) (h : s.dec = some d) : s.decoderInv := by
  intro d' h'
  obtain rfl : d = d' := Option.some.inj (h.symm.trans h')
  exact hd

theorem decStart_wf (P : Params) : decStart.wf P := ⟨fun _ => rfl, nofun⟩

theorem State.Inv.decoder_wf {s : State} {d : Decoder} (h : s.Inv) (hd : s.dec = some d) : d.wf s.cfg := by
  obtain ⟨-, -, -, -, -, hdec, -⟩ := h
  exact hdec d hd

/-- A byte that DEC takes and goes on keeps the buffer empty outside a frame. -/
theorem decByte_more_wf {P : Params} {d d' : Decoder} {b : Byte} (hd : d.wf P) (h : decByte P d b = .more d') :
    d'.wf P := by
  obtain ⟨st, buf⟩ := d
  obtain ⟨hhunt, hdrain⟩ := hd
  cases st with
  | hunt =>
    rw [decByte_hunt] at h
    cases h
    exact ⟨fun _ => hhunt rfl, fun hst => by dsimp only at hst; split at hst <;> cases hst⟩
  | data =>
    simp only [decByte] at h
    split_ifs at h <;> cases h <;> exact ⟨nofun, nofun⟩
  | escaped =>
    simp only [decByte] at h
    split_ifs at h
    · cases h; exact ⟨nofun, nofun⟩
    · cases h; exact ⟨nofun, nofun⟩
    · split at h <;> cases h
    · split at h <;> cases h
      case h_2 hresync => exact ⟨nofun, fun _ => ⟨rfl, hresync⟩⟩
  | drain =>
    simp only [decByte] at h
    split_ifs at h
    cases h
    exact ⟨nofun, hdrain⟩

/-! ### The receiver and the running DEC -/

theorem State.Inv.nextAttempt {s : State} {e : Exchange} (h : s.Inv) (hx : s.inExchange e) (hfor : s.exchangeFor e) :
    s.nextAttempt.Inv := by
  obtain ⟨hex, hdone, htx, -⟩ := hx
  exact h.moveAgents hfor ⟨hex, hdone, htx, by simp⟩ (decoderInv_of_some (decStart_wf _) rfl)

/-- The running DEC goes on. -/
theorem State.Inv.decMoves {s : State} {d d' : Decoder} (h : s.Inv) (hd : s.dec = some d) (hd' : d'.wf s.cfg) :
    State.Inv { s with dec := some d' } := by
  have hdec : State.decoderInv { s with dec := some d' } := decoderInv_of_some hd' rfl
  rcases h.decoding (by simp [hd]) with ⟨hop, hmsg, htx, hrest⟩ | ⟨e, ⟨hex, hdone, htx, hmsg⟩, hfor⟩
  · obtain ⟨hw, hopInv, hhandle, hframes, hdone, -, hclosed⟩ := h
    refine ⟨hw, ?_, hhandle, hframes, hdone, hdec, hclosed⟩
    rw [State.opInv, hop] at hopInv ⊢
    exact ⟨hopInv.1, rfl, hmsg, htx, hrest⟩
  · exact h.moveAgents hfor ⟨hex, hdone, htx, by simpa [hd] using hmsg⟩ hdec

/-- A DEC requested directly returns. -/
theorem State.Inv.decReturns {s : State} {r : Result} (h : s.Inv) (hop : s.op = some .dec) :
    (State.finish r { s with dec := none }).Inv := by
  have hopen : s.isOpen := h.open_of_running (by simp [hop])
  obtain ⟨hex, hdone⟩ := h.noExchange (by simp [hop, exchanging]) (State.isOpen_live hopen)
  have hhandle : s.handle.isSome = true := h.handle_of_open hopen
  have hlate : s.lateFramesInv := h.lateFrames
  obtain ⟨hw, hopInv, -⟩ := h
  rw [State.opInv, hop] at hopInv
  obtain ⟨-, -, hmsg, htx, hrest⟩ := hopInv
  exact inv_of_open_idle hw hopen hhandle rfl ⟨rfl, hmsg, htx⟩ hrest hex hdone hlate

/-- A DEC of an exchange gives its payload to the receiver. -/
theorem State.Inv.decGives {s : State} {e : Exchange} {p : Bytes} (h : s.Inv) (hx : s.inExchange e)
    (hfor : s.exchangeFor e) : State.Inv { s with dec := none, rxMsg := some p } := by
  obtain ⟨hex, hdone, htx, -⟩ := hx
  exact h.moveAgents hfor ⟨hex, hdone, htx, by simp⟩ (nofun : State.decoderInv { s with dec := none })

/-- In an exchange a running DEC belongs to it. -/
theorem State.Inv.exchange_of_decoding {s : State} {d : Decoder} (h : s.Inv) (hd : s.dec = some d)
    (hexch : exchanging s.op = true) : ∃ e, s.inExchange e ∧ s.exchangeFor e := by
  refine (h.decoding (by simp [hd])).resolve_left fun hdirect => ?_
  simp [hdirect.1, exchanging] at hexch

theorem decError_keeps_inv {s t : State} {d : Decoder} {k : ErrorKind} (h : s.Inv) (hd : s.dec = some d)
    (hk : decError k s = .next t) : t.Inv := by
  rcases decError_next hk with ⟨hexch, rfl⟩ | ⟨hop, rfl⟩
  · obtain ⟨e, hx, hfor⟩ := h.exchange_of_decoding hd hexch
    exact h.nextAttempt hx hfor
  · exact h.decReturns hop

theorem decFrame_keeps_inv {s t : State} {d : Decoder} {p : Bytes} (h : s.Inv) (hd : s.dec = some d)
    (hp : decFrame p s = .next t) : t.Inv := by
  rcases decFrame_next hp with ⟨hexch, rfl⟩ | ⟨hop, rfl⟩
  · obtain ⟨e, hx, hfor⟩ := h.exchange_of_decoding hd hexch
    exact h.decGives hx hfor
  · exact h.decReturns hop

theorem feed_keeps_inv {s t : State} {d : Decoder} {b : Byte} (h : s.Inv) (hd : s.dec = some d)
    (hb : feed b s = .next t) : t.Inv := by
  rcases feed_cases b s with ⟨hnone, -⟩ | ⟨d₀, hd₀, ⟨d', hmore, hf⟩ | ⟨p, -, hf⟩ | ⟨-, hf⟩⟩
  · simp [hd] at hnone
  · rw [hf] at hb
    cases hb
    exact h.decMoves hd₀ (decByte_more_wf (h.decoder_wf hd₀) hmore)
  · exact decFrame_keeps_inv h hd (hf ▸ hb)
  · exact decError_keeps_inv h hd (hf ▸ hb)

/-- A matched Response ends the exchange and the operation around it. -/
theorem State.Inv.exchangeReturns {s : State} {e : Exchange} {x : Response} (h : s.Inv) (hx : s.inExchange e)
    (hfor : s.exchangeFor e) : ((s.endExchange e).deliver x).Inv := by
  have hopen : s.isOpen := hfor.isOpen
  have hhandle : s.handle.isSome = true := h.handle_of_open hopen
  obtain ⟨hrest, -⟩ := hfor
  obtain ⟨hex, -⟩ := hx
  obtain ⟨hw, -, -, ⟨hframe, hlate⟩, -⟩ := h
  obtain ⟨hwf, hcmd⟩ := hframe e hex
  obtain ⟨r, p, heq, hp⟩ := deliver_cases x (s.endExchange e)
  have hlate' : (s.endExchange e).lateFramesInv := by
    intro l hl
    rw [State.endExchange_late, List.mem_append] at hl
    refine hl.elim (hlate l) fun hown => ?_
    cases htx : s.tx with
    | none => simp [htx, lateOf] at hown
    | some pos =>
      rw [htx, lateOf, List.mem_singleton] at hown
      exact ⟨e.cmd, hwf, by rw [hown]; exact hcmd⟩
  have hopen' : p = .connected ∨ p = .synced := by
    rcases hp with rfl | ⟨-, rfl⟩
    · exact hopen
    · exact .inr rfl
  rw [heq]
  exact inv_of_open_idle hw hopen' hhandle rfl ⟨rfl, rfl, rfl⟩ hrest rfl (by simp) hlate'

/-- The receiver's turn on the payload it holds. -/
theorem receive_keeps_inv {s t : State} {f g : Bytes} (h : s.Inv) (hmsg : s.rxMsg = some f)
    (hg : receive g { s with rxMsg := none } = .next t) : t.Inv := by
  obtain ⟨e, hx, hfor⟩ := h.exchange (.inl (by simp [hmsg]))
  rcases receive_next hg with ⟨-, e', he', ⟨k, -, rfl⟩ | ⟨x, -, rfl⟩⟩ | ⟨⟨hop, -⟩, -⟩
  · exact h.nextAttempt hx hfor
  · obtain rfl : e = e' := Option.some.inj (hx.1.symm.trans he')
    exact h.exchangeReturns hx hfor
  · exact absurd hop (h.running_of_busy fun ⟨_, hnone, _⟩ => by simp [hmsg] at hnone)

theorem receiverTurn_keeps_inv {s t : State} (h : s.Inv) (ht : (receiverTurn s).out = .next t) : t.Inv := by
  rcases receiverTurn_next ht with ⟨f, g, hmsg, hg⟩ | ⟨-, -, rfl⟩ | ⟨d, -, hd, -, ⟨-, rfl⟩ | ⟨b, r, b', -, hb⟩⟩
  · exact receive_keeps_inv h hmsg hg
  · exact h
  · exact h
  · exact feed_keeps_inv (s := { s with rxq := r }) h hd hb

/-! ### The transmitters -/

/-- The running transmitter stands somewhere else in its loop. -/
theorem State.Inv.txMoves {s : State} {x y : TxPos} (h : s.Inv) (htx : s.tx = some x) :
    State.Inv { s with tx := some y } := by
  obtain ⟨e, ⟨hex, hdone, -, hmsg⟩, hfor⟩ := h.exchange (.inr (by simp [htx]))
  obtain ⟨-, -, -, -, -, hdec, -⟩ := id h
  exact h.moveAgents hfor ⟨hex, hdone, rfl, hmsg⟩ hdec

/-- The late transmitters change, but hold no new frame. -/
theorem State.Inv.lateMoves {s : State} {l : List LateTx} (h : s.Inv)
    (hl : ∀ t ∈ l, ∃ t' ∈ s.late, t.frame = t'.frame) : State.Inv { s with late := l } := by
  have hempty : s.late = [] → l = [] := by
    intro hnil
    refine List.eq_nil_iff_forall_not_mem.mpr fun t ht => ?_
    obtain ⟨t', ht', -⟩ := hl t ht
    simp [hnil] at ht'
  obtain ⟨hw, hop, hhandle, ⟨hframe, hlate⟩, hdone, hdec, hdisc, hfailed⟩ := h
  refine ⟨hw, hop, hhandle, ⟨hframe, fun t ht => ?_⟩, hdone, hdec, fun hp => ?_, fun hp => ?_⟩
  · obtain ⟨t', ht', hft⟩ := hl t ht
    rw [hft]
    exact hlate t' ht'
  · exact ⟨(hdisc hp).1, hempty (hdisc hp).2.1, (hdisc hp).2.2⟩
  · exact ⟨(hfailed hp).1, hempty (hfailed hp).2⟩

theorem txWrite_keeps_inv {s t : State} {f : Bytes} (h : s.Inv) (hf : txWrite f s = .next t) : t.Inv := by
  rcases txWrite_next.mp hf with ⟨-, -, ⟨-, rfl⟩ | ⟨-, rfl⟩⟩
  · have hw : s.taken.agentError.cfg.WF := by
      rw [State.agentError_cfg]
      exact h.1
    exact inv_of_aborted hw (agentError_aborted _)
  · exact h

theorem transmitterTurn_keeps_inv {s t : State} (h : s.Inv) (ht : (transmitterTurn s).out = .next t) : t.Inv := by
  rcases transmitterTurn_next ht with rfl | ⟨d, hd, htx, rfl⟩ | ⟨e, -, htx, hw⟩
  · exact h
  · obtain ⟨e, ⟨-, hdone, -⟩, -⟩ := h.exchange (.inr (by simp [htx]))
    obtain rfl : d = false := Option.some.inj (hd.symm.trans hdone)
    exact h.txMoves htx
  · exact txWrite_keeps_inv (h.txMoves htx) hw

/-- Setting one late transmitter's place keeps the frames that the late transmitters hold. -/
theorem mem_set_frame {l : List LateTx} {k : Nat} {t u : LateTx} {p : TxPos} (hk : l[k]? = some t)
    (hu : u ∈ l.set k { t with pos := p }) : ∃ t' ∈ l, u.frame = t'.frame := by
  rcases List.mem_or_eq_of_mem_set hu with hmem | rfl
  · exact ⟨u, hmem, rfl⟩
  · exact ⟨t, List.mem_of_getElem? hk, rfl⟩

theorem lateTurn_keeps_inv {k : Nat} {s t : State} (h : s.Inv) (ht : (lateTurn k s).out = .next t) : t.Inv := by
  rcases lateTurn_next ht with rfl | ⟨l, hl, -, rfl⟩ | ⟨l, hl, -, hw⟩
  · exact h
  · exact h.lateMoves fun u hu => ⟨u, List.mem_of_mem_eraseIdx hu, rfl⟩
  · exact txWrite_keeps_inv (h.lateMoves fun u hu => mem_set_frame hl hu) hw

theorem retx_keeps_inv {s : State} (h : s.Inv) : State.Inv { s with tx := s.tx.map TxPos.fired } := by
  cases htx : s.tx with
  | none =>
    show State.Inv { s with tx := none }
    rw [← htx]
    exact h
  | some x => exact h.txMoves htx

theorem lateRetx_keeps_inv {s : State} (k : Nat) (h : s.Inv) :
    State.Inv { s with late := s.late.modify k fun t => { t with pos := t.pos.fired } } := by
  refine h.lateMoves fun u hu => ?_
  obtain ⟨i, hi⟩ := List.mem_iff_getElem?.mp hu
  rw [List.getElem?_modify] at hi
  cases hsi : s.late[i]? with
  | none => simp [hsi] at hi
  | some t =>
    refine ⟨t, List.mem_of_getElem? hsi, ?_⟩
    simp only [hsi, Option.map_some, Option.map_eq_map, Option.some.injEq] at hi
    rw [← hi]
    split <;> rfl

/-! ### The sequencer -/

theorem syncCommand_wf {P : Params} (h : P.WF) : (syncCommand P).WF := by
  obtain ⟨-, -, -, -, -, -, -, hmagic, -⟩ := h
  rw [Command.WF, syncCommand, hmagic]
  decide

theorem readRegCommand_wf (P : Params) (a : Word) : (readRegCommand P a).WF := by
  rw [Command.WF, readRegCommand, length_le32]
  decide

theorem settled_keeps_inv {s t : State} (h : s.Inv) (ht : settled s = .next t) : t.Inv := by
  have hw : s.cfg.WF := h.1
  rcases settled_next ht with ⟨hseq, hh, ⟨-, rfl⟩ | ⟨-, rfl⟩⟩ | ⟨hseq, hend⟩ | ⟨-, -, rfl⟩
  · exact inv_of_aborted hw (transportError_aborted _)
  · obtain ⟨hop, hquiet, -⟩ := h.settling (by simp [hseq])
    have hreset : State.resetting { s.linesSet true false with seq := some .s2 } :=
      ⟨hquiet, .inr ⟨rfl, rfl, rfl, rfl, rfl⟩⟩
    obtain ⟨-, -, hhandle, hframes, hdone, hdec, hclosed⟩ := h
    refine ⟨hw, ?_, hhandle, hframes, hdone, hdec, hclosed⟩
    unfold State.opInv
    rcases hop with ⟨hop, hopen⟩ | ⟨hop, hconn⟩
    · simp only [State.linesSet, hop]
      exact ⟨hopen, hreset⟩
    · simp only [State.linesSet, hop]
      exact ⟨hconn, .inl hreset⟩
  · obtain ⟨hrun, hquiet, hlines⟩ := h.settling (by simp [hseq])
    have hlines : s.linesAre true false := by simpa [hseq] using hlines
    have hopen : s.isOpen := hrun.elim (·.2) fun hsync => .inl hsync.2
    have hhandle : s.handle.isSome = true := h.handle_of_open hopen
    rcases hend with ⟨hop, rfl⟩ | ⟨hop, rfl⟩
    · obtain ⟨hex, hdone⟩ := h.noExchange (by simp [hop, exchanging]) (State.isOpen_live hopen)
      exact inv_of_open_idle hw hopen hhandle rfl hquiet rfl hex hdone h.lateFrames
    · have hconn : s.psState = .connected := by simpa [hop] using hrun
      refine inv_startExchange (s := { s with seq := none }) hw hhandle h.lateFrames (syncCommand_wf hw) ⟨rfl, ?_⟩
      simp only [hop]
      exact ⟨hconn, hlines, rfl⟩
  · exact h

/-! ### The operations -/

theorem execExec_next {c : Command} {s t : State} (h : exec (.exec c) s = .next t) :
    c.WF ∧ t = State.startExchange c { s with op := some .exec } := by
  rw [exec, execExec, whenIdle_next, whenState_next, whenCommand_next, whenHandle_next] at h
  obtain ⟨-, -, hc, -, h⟩ := h
  cases h
  exact ⟨hc, rfl⟩

theorem execReadreg_next {a : Word} {s t : State} (h : exec (.readreg a) s = .next t) :
    t = State.startExchange (readRegCommand s.cfg a) { s with op := some .readreg } := by
  rw [exec, execReadreg, whenIdle_next, whenState_next, whenHandle_next] at h
  obtain ⟨-, -, -, h⟩ := h
  cases h
  rfl

/-- RSTSEQ or SYNC has begun: the first settle wait. -/
theorem State.Inv.resetStarts {s : State} {o : Running} (h : s.Inv) (hop : s.op = none) (hopen : s.isOpen)
    (ho : o = .rstseq ∨ (o = .sync ∧ s.psState = .connected)) :
    State.Inv { s.linesSet false true with op := some o, res := none, seq := some .s1 } := by
  obtain ⟨hquiet, -⟩ := h.quiet_of_idle hop
  have hreset : State.resetting { s.linesSet false true with op := some o, res := none, seq := some .s1 } :=
    ⟨hquiet, .inl ⟨rfl, rfl, rfl, rfl, rfl⟩⟩
  obtain ⟨hex, hdone⟩ := h.noExchange (by simp [hop, exchanging]) (State.isOpen_live hopen)
  have hhandle : s.handle.isSome = true := h.handle_of_open hopen
  obtain ⟨hw, -, -, hframes, -, hdec, -⟩ := h
  refine inv_of_open hw hopen hhandle ?_ hframes (fun _ => ⟨hex, fun _ => hdone⟩) hdec
  rcases ho with rfl | ⟨rfl, hconn⟩
  · exact ⟨hopen, hreset⟩
  · exact ⟨hconn, .inl hreset⟩

theorem operation_keeps_inv {i : Instr} {s t : State} (h : s.Inv) (hl : layerOf i = .operation)
    (hi : exec i s = .next t) : t.Inv := by
  have hw : s.cfg.WF := h.1
  obtain ⟨⟨hop, hlive⟩, hcases⟩ := operation_next hl hi
  obtain ⟨hquiet, hrest⟩ := h.quiet_of_idle hop
  obtain ⟨hex, hdone⟩ := h.noExchange (by simp [hop, exchanging]) hlive
  rcases hcases with ⟨r, rfl, -⟩ | ⟨-, hopen, hh, rfl⟩ | ⟨d, r, -, hopen, hh, ⟨-, rfl⟩ | ⟨-, rfl⟩⟩ |
    ⟨o, ho, hopen, hh, ⟨-, rfl⟩ | ⟨-, rfl⟩⟩ | ⟨p, b, -, hdisc, ⟨-, rfl⟩ | ⟨hd, rfl⟩⟩ | ⟨c, o, ho, hsynced, hh, -⟩
  · rw [State.finish_of_idle ⟨hop, hlive⟩]
    exact h
  · refine inv_of_open hw hopen hh ?_ ⟨by simp [hex], h.lateFrames⟩ (fun _ => ⟨hex, fun _ => hdone⟩)
      (decoderInv_of_some (decStart_wf _) rfl)
    exact ⟨hopen, rfl, hquiet.2.1, hquiet.2.2, hrest⟩
  · exact inv_of_aborted hw (transportError_aborted _)
  · exact inv_of_open_idle hw hopen hh rfl hquiet hrest hex hdone h.lateFrames
  · exact inv_of_aborted hw (transportError_aborted _)
  · exact h.resetStarts hop hopen (ho.imp (·.2) (·.2))
  · exact inv_of_aborted hw (transportError_aborted _)
  · exact inv_of_open_idle hw (.inl rfl) rfl rfl hquiet hrest hex hdone h.lateFrames
  · rcases ho with ⟨rfl, -⟩ | ⟨a, rfl, -⟩
    · obtain ⟨hc, rfl⟩ := execExec_next hi
      exact inv_startExchange (s := { s with op := some .exec }) hw hh h.lateFrames hc ⟨hrest, hsynced⟩
    · obtain rfl := execReadreg_next hi
      exact inv_startExchange (s := { s with op := some .readreg }) hw hh h.lateFrames (readRegCommand_wf _ a)
        ⟨hrest, hsynced, a, rfl⟩

/-! ### Every step -/

theorem act_keeps_inv {e : Event} {s t : State} (h : s.Inv) (ht : (act e s).out = .next t) : t.Inv :=
  act_ind (R := fun s t _ => s.Inv → t.Inv) ht
    (hreq := fun _ _ hl hi h => operation_keeps_inv h hl hi)
    (harr := fun _ _ h => h)
    (htake := fun _ h => h)
    (hrf := fun _ _ _ h => inv_of_aborted h.1 (transportError_aborted _))
    (hset := fun _ hs h => settled_keeps_inv h hs)
    (hretx := fun _ h => retx_keeps_inv h)
    (hid := fun _ _ h => h)
    (hdl := fun _ _ hd hk h => decError_keeps_inv h hd hk)
    (hrx := fun _ hturn h => receiverTurn_keeps_inv h hturn)
    (htx := fun _ hturn h => transmitterTurn_keeps_inv h hturn)
    (hlate := fun _ _ hturn h => lateTurn_keeps_inv h hturn)
    (hlr := fun k _ h => lateRetx_keeps_inv k h) h

/-- Settles O3: the invariant does not speak of the events, and every way an event can go keeps it. -/
theorem stepKeepsTheInvariant : Obligations.StepKeepsTheInvariant := by
  intro s t h hstep
  exact act_keeps_inv (s := s.taken) h ((step_out s).symm.trans hstep)

/-- Settles O2: after reset the parameters are the defaults, nothing runs and nothing is open. -/
theorem resetMeetsTheInvariant : Obligations.ResetMeetsTheInvariant := by
  refine ⟨?_, ⟨⟨rfl, rfl, rfl⟩, rfl⟩, ⟨fun _ => rfl, ?_⟩, ⟨nofun, nofun⟩, fun _ => ⟨rfl, fun _ => nofun⟩, nofun,
    ⟨fun _ => ⟨rfl, rfl, rfl⟩, nofun⟩⟩
  · have hsettle : 0 < Config.settleLessOne + 1 := Nat.succ_pos _
    exact ⟨by decide, by decide, by decide, by decide, by decide, by decide, by decide, by decide, by decide, hsettle,
      by decide, by decide⟩
  · rintro (hopen | hopen) <;> cases hopen

end Sys2Proof.Machine
end

section
/-! PROOFS. Where the model faults, and that the invariant excludes each such state (log 21). -/

namespace Sys2Proof.Machine

/-! ### What each fault says of the state -/

/-- The request of an operation faults only in an open session without a handle. -/
theorem operation_fault {i : Instr} {s : State} {r : Fault} (hl : layerOf i = .operation) (h : exec i s = .fault r) :
    s.isOpen ∧ s.handle = none := by
  have hreset : ∀ o, startReset o s ≠ .fault r := by
    intro o ho
    rcases startReset_cases o s with ⟨-, e⟩ | ⟨-, e⟩ <;> simp [e] at ho
  cases i <;> simp [layerOf] at hl <;>
    simp only [exec, execEnc, execDec, execMksync, execMkrdreg, execSer, execParse, execSetlines, execRstseq, execConnect,
      execSync, execExec, execReadreg] at h <;>
    rw [whenIdle_fault] at h <;> obtain ⟨-, h⟩ := h
  case enc => cases h
  case mksync => cases h
  case mkrdreg => cases h
  case parse => cases h
  case ser => rw [whenCommand_fault] at h; cases h.2
  case dec =>
    rw [whenOpen_fault, whenHandle_fault] at h
    obtain ⟨hopen, ⟨hh, -⟩ | ⟨-, h⟩⟩ := h
    · exact ⟨hopen, hh⟩
    · cases h
  case setlines d q =>
    rw [whenOpen_fault, whenHandle_fault, setLines_eq] at h
    obtain ⟨hopen, ⟨hh, -⟩ | ⟨-, h⟩⟩ := h
    · exact ⟨hopen, hh⟩
    · split_ifs at h
  case rstseq =>
    rw [whenOpen_fault, whenHandle_fault] at h
    obtain ⟨hopen, ⟨hh, -⟩ | ⟨-, h⟩⟩ := h
    · exact ⟨hopen, hh⟩
    · exact absurd h (hreset _)
  case connect p b =>
    rw [whenState_fault] at h
    have h := h.2
    split at h <;> cases h
  case sync =>
    rw [whenState_fault, whenHandle_fault] at h
    obtain ⟨hconn, ⟨hh, -⟩ | ⟨-, h⟩⟩ := h
    · exact ⟨.inl hconn, hh⟩
    · exact absurd h (hreset _)
  case exec c =>
    rw [whenState_fault, whenCommand_fault, whenHandle_fault] at h
    obtain ⟨hsynced, -, ⟨hh, -⟩ | ⟨-, h⟩⟩ := h
    · exact ⟨.inr hsynced, hh⟩
    · cases h
  case readreg a =>
    rw [whenState_fault, whenHandle_fault] at h
    obtain ⟨hsynced, ⟨hh, -⟩ | ⟨-, h⟩⟩ := h
    · exact ⟨.inr hsynced, hh⟩
    · cases h

/-- A byte at a running DEC faults only where that DEC runs for no operation. -/
theorem feed_fault {b : Byte} {s : State} {r : Fault} (h : feed b s = .fault r) :
    exchanging s.op = false ∧ s.op ≠ some .dec := by
  rcases feed_cases b s with ⟨-, hf⟩ | ⟨d, -, ⟨d', -, hf⟩ | ⟨p, -, hf⟩ | ⟨-, hf⟩⟩ <;> rw [hf] at h
  · cases h
  · cases h
  · exact decFrame_fault h
  · exact decError_fault h

/-- The receiver's turn faults only where its payload belongs to no exchange, or its DEC has no handle or no operation. -/
theorem receiverTurn_fault {s : State} {r : Fault} (h : (receiverTurn s).out = .fault r) :
    (s.rxMsg ≠ none ∧ s.ex = none) ∨
    (s.dec ≠ none ∧ (s.handle = none ∨ (exchanging s.op = false ∧ s.op ≠ some .dec))) := by
  unfold receiverTurn at h
  split at h
  case h_1 f hmsg =>
    obtain ⟨g, hg⟩ := exec_decodeReceived s.cfg f { s with rxMsg := none }
    rw [Action.out, hg] at h
    exact .inl ⟨by simp [hmsg], (receive_fault h).2⟩
  case h_2 =>
    split at h
    case h_1 => cases h
    case h_2 d hd =>
      refine .inr ⟨by simp [hd], ?_⟩
      split_ifs at h with hh
      · exact .inl (by simpa using hh)
      · split at h
        case h_1 => cases h
        case h_2 b q hq =>
          obtain ⟨b', hb⟩ := fetchSymbol_feed d b { s with rxq := q } hd
          rw [hb] at h
          exact .inr (feed_fault (s := { s with rxq := q }) h)

/-- A running transmitter faults only where it has no exchange, or no handle. -/
theorem transmitterTurn_fault {s : State} {r : Fault} (h : (transmitterTurn s).out = .fault r) :
    s.tx ≠ none ∧ (s.exDone = none ∨ s.ex = none ∨ s.handle = none) := by
  unfold transmitterTurn at h
  split at h
  case h_1 => cases h
  case h_2 => cases h
  case h_3 htx =>
    split at h
    case h_1 hdone => exact ⟨by simp [htx], .inl hdone⟩
    case h_2 => cases h
  case h_4 htx =>
    split at h
    case h_1 hex => exact ⟨by simp [htx], .inr (.inl hex)⟩
    case h_2 e _ =>
      rw [fetchFrame_out, txWrite_fault] at h
      exact ⟨by simp [htx], .inr (.inr h.2.1)⟩

theorem lateTurn_fault {k : Nat} {s : State} {r : Fault} (h : (lateTurn k s).out = .fault r) :
    s.late ≠ [] ∧ s.handle = none := by
  unfold lateTurn at h
  split at h
  case h_1 => cases h
  case h_2 l hl =>
    have hlate : s.late ≠ [] := fun hnil => by simp [hnil] at hl
    split at h
    case h_1 => cases h
    case h_2 => cases h
    case h_3 =>
      rw [fetchFrame_out, txWrite_fault] at h
      exact ⟨hlate, h.2.1⟩

theorem readFailed_fault {s : State} {r : Fault} (h : readFailed s = .fault r) : s.dec ≠ none ∧ s.handle = none := by
  unfold readFailed at h
  split_ifs at h with hd
  rw [whenHandle_fault] at h
  obtain ⟨hh, -⟩ | ⟨-, h⟩ := h
  · exact ⟨by simpa [Option.isSome_iff_ne_none] using hd, hh⟩
  · cases h

/-- The sequencer faults only where it has no handle, or waits for no operation. -/
theorem settled_fault {s : State} {r : Fault} (h : settled s = .fault r) :
    s.seq ≠ none ∧ (s.handle = none ∨ (s.op ≠ some .rstseq ∧ s.op ≠ some .sync)) := by
  unfold settled at h
  split at h
  case h_1 hseq =>
    refine ⟨by simp [hseq], .inl ?_⟩
    rw [whenHandle_fault, setLines_eq] at h
    obtain ⟨hh, -⟩ | ⟨-, h⟩ := h
    · exact hh
    · split_ifs at h
  case h_2 hseq =>
    refine ⟨by simp [hseq], .inr ?_⟩
    simp only [afterReset] at h
    split at h
    case h_1 => cases h
    case h_2 => cases h
    case h_3 hnot hnot' => exact ⟨hnot, hnot'⟩
  case h_3 => cases h
  case h_4 => cases h
  case h_5 => cases h

/-! ### The invariant excludes them -/

theorem State.Inv.dec_has_operation {s : State} (h : s.Inv) (hd : s.dec ≠ none) :
    ¬ (exchanging s.op = false ∧ s.op ≠ some .dec) := by
  rintro ⟨hnot, hdirect⟩
  rcases h.decoding hd with ⟨hop, -⟩ | ⟨e, -, hfor⟩
  · exact hdirect hop
  · simp [hfor.exchanging] at hnot

theorem State.Inv.handle_of_dec {s : State} (h : s.Inv) (hd : s.dec ≠ none) : s.handle ≠ none :=
  Option.isSome_iff_ne_none.mp (h.handle_of_running (h.running_of_busy fun hq => hd hq.1))

theorem act_no_fault {e : Event} {s : State} {r : Fault} (h : s.Inv) : (act e s).out ≠ .fault r := by
  intro hf
  cases e <;> simp only [act] at hf
  case request i =>
    split_ifs at hf with hi
    · obtain ⟨hopen, hh⟩ := operation_fault (by simpa [isOperation] using hi) hf
      simpa [hh] using h.handle_of_open hopen
    · cases hf
  case failRead =>
    obtain ⟨hd, hh⟩ := readFailed_fault hf
    exact h.handle_of_dec hd hh
  case settle =>
    obtain ⟨hseq, hbad⟩ := settled_fault hf
    obtain ⟨hop, -⟩ := h.settling hseq
    have hrun : s.op ≠ none := by rcases hop with ⟨hop, -⟩ | ⟨hop, -⟩ <;> simp [hop]
    rcases hbad with hh | ⟨hrst, hsync⟩
    · simpa [hh] using h.handle_of_running hrun
    · exact hop.elim (fun ho => hrst ho.1) (fun ho => hsync ho.1)
  case deadline =>
    by_cases hd : s.dec.isSome = true
    · rw [Action.out, if_pos hd] at hf
      exact h.dec_has_operation (Option.isSome_iff_ne_none.mp hd) (decError_fault hf)
    · rw [Action.out, if_neg hd] at hf
      cases hf
  case rx =>
    rcases receiverTurn_fault hf with ⟨hmsg, hex⟩ | ⟨hd, hh | hop⟩
    · obtain ⟨e, ⟨hex', -⟩, -⟩ := h.exchange (.inl hmsg)
      simp [hex] at hex'
    · exact h.handle_of_dec hd hh
    · exact h.dec_has_operation hd hop
  case tx =>
    obtain ⟨htx, hbad⟩ := transmitterTurn_fault hf
    obtain ⟨e, ⟨hex, hdone, -⟩, hfor⟩ := h.exchange (.inr htx)
    rcases hbad with hnone | hnone | hnone
    · simp [hnone] at hdone
    · simp [hnone] at hex
    · simpa [hnone] using h.handle_of_open hfor.isOpen
  case late k =>
    obtain ⟨hlate, hh⟩ := lateTurn_fault hf
    simpa [hh] using h.handle_of_open (h.open_of_late hlate)
  all_goals cases hf

/-- Settles O4: no event can come to a fault, whatever it is. -/
theorem invariantRulesOutFaults : Obligations.InvariantRulesOutFaults := by
  intro s r h hstep
  exact act_no_fault (s := s.taken) h ((step_out s).symm.trans hstep)

end Sys2Proof.Machine
end

section
/-! PROOFS. Encodings (30_encoding.md): an encoded instruction is read back, and what is read encodes to the bytes read. -/

namespace Sys2Proof.Machine

/-! ### Link symbols -/

theorem decodeLink_delim (P : Params) (r : Bytes) : decodeLink P (P.delim :: r) = .ok (.linkDelim, r) := if_pos rfl

theorem decodeLink_lit {P : Params} {b : Byte} (hd : b ≠ P.delim) (he : b ≠ P.esc) (r : Bytes) :
    decodeLink P (b :: r) = .ok (.linkLit b, r) := by
  simp [decodeLink, hd, he]

/-- Behind `ESC` the next byte tells the symbol (R61, R71). -/
theorem decodeLink_esc {P : Params} (hP : P.WF) (c : Byte) (r : Bytes) :
    decodeLink P (P.esc :: c :: r) =
      if c = P.escDelim then .ok (.linkEscd, r)
      else if c = P.escEsc then .ok (.linkEsce, r)
      else .ok (.linkEscbad c, r) := by
  have hne : P.esc ≠ P.delim := hP.1.symm
  rw [decodeLink, if_neg hne, if_pos rfl]

theorem decodeLink_encode {P : Params} {i : Instr} (hP : P.WF) (hi : i.wf P = true) (hl : layerOf i = .link)
    (rest : Bytes) : decodeLink P (encode P i ++ rest) = .ok (i, rest) := by
  cases i with
  | linkDelim => exact decodeLink_delim P rest
  | linkEscd =>
    rw [encode, List.cons_append, List.cons_append, decodeLink_esc hP, if_pos rfl]
    rfl
  | linkEsce =>
    have hcodes : P.escEsc ≠ P.escDelim := by
      obtain ⟨-, -, -, -, -, hcodes, -⟩ := hP
      exact hcodes.symm
    rw [encode, List.cons_append, List.cons_append, decodeLink_esc hP, if_neg hcodes, if_pos rfl]
    rfl
  | linkEscbad b =>
    simp only [Instr.wf, Bool.and_eq_true, bne_iff_ne] at hi
    rw [encode, List.cons_append, List.cons_append, decodeLink_esc hP, if_neg hi.1, if_neg hi.2]
    rfl
  | linkLit b =>
    simp only [Instr.wf, Bool.and_eq_true, bne_iff_ne] at hi
    exact decodeLink_lit hi.1 hi.2 rest
  | _ => cases hl

/-- What is read from a frame body is a symbol, and its bytes are the ones read. -/
theorem decodeLink_ok {P : Params} {bs rest : Bytes} {i : Instr} (hP : P.WF) (h : decodeLink P bs = .ok (i, rest)) :
    layerOf i = .link ∧ i.wf P = true ∧ encode P i ++ rest = bs := by
  match bs with
  | [] => cases h
  | b :: r =>
    by_cases hd : b = P.delim
    · subst hd
      rw [decodeLink_delim] at h
      cases h
      exact ⟨rfl, rfl, rfl⟩
    · by_cases he : b = P.esc
      · subst he
        match r with
        | [] => simp [decodeLink, hd] at h
        | c :: r =>
          rw [decodeLink_esc hP] at h
          split_ifs at h with hcd hce
          · cases h
            subst hcd
            exact ⟨rfl, rfl, rfl⟩
          · cases h
            subst hce
            exact ⟨rfl, rfl, rfl⟩
          · cases h
            exact ⟨rfl, by simp [Instr.wf, hcd, hce], rfl⟩
      · rw [decodeLink_lit hd he] at h
        cases h
        exact ⟨rfl, by simp [Instr.wf, hd, he], rfl⟩

/-! ### Requests -/

/-- The row of a request carries its Command, is well formed if that is one, and has its bytes (R66, R69). -/
theorem requestForm_spec (P : Params) (op : Byte) (ck : Word) (pl : Bytes) :
    layerOf (requestForm P op ck pl) = .request ∧ (requestForm P op ck pl).wf P = decide (pl.length ≤ 65535) ∧
    encode P (requestForm P op ck pl) = encodeRequest op ck pl ∧
    commandOf P (requestForm P op ck pl) = some ⟨op, ck, pl⟩ := by
  unfold requestForm
  split_ifs with hsync hread
  · subst hsync
    exact ⟨rfl, rfl, rfl, rfl⟩
  · subst hread
    exact ⟨rfl, rfl, rfl, rfl⟩
  · refine ⟨rfl, ?_, rfl, rfl⟩
    simp [Instr.wf, hsync, hread]

/-- A well-formed instruction of the request level is the row of some opcode, checksum and payload. -/
theorem exists_requestForm {P : Params} {i : Instr} (hP : P.WF) (hi : i.wf P = true) (hl : layerOf i = .request) :
    ∃ op ck pl, i = requestForm P op ck pl ∧ pl.length ≤ 65535 := by
  have hops : P.opReadReg ≠ P.opSync := by
    obtain ⟨-, -, -, -, -, -, hops, -⟩ := hP
    exact hops.symm
  cases i with
  | reqSync ck pl => exact ⟨P.opSync, ck, pl, (if_pos rfl).symm, of_decide_eq_true hi⟩
  | reqReadReg ck pl =>
    exact ⟨P.opReadReg, ck, pl, by rw [requestForm, if_neg hops, if_pos rfl], of_decide_eq_true hi⟩
  | reqGeneric op ck pl =>
    simp only [Instr.wf, Bool.and_eq_true, bne_iff_ne, decide_eq_true_eq] at hi
    obtain ⟨⟨hsync, hread⟩, hlen⟩ := hi
    exact ⟨op, ck, pl, by rw [requestForm, if_neg hsync, if_neg hread], hlen⟩
  | _ => cases hl

theorem decodeRequest_encodeRequest (P : Params) (op : Byte) (ck : Word) {pl : Bytes} (h : pl.length ≤ 65535)
    (rest : Bytes) : decodeRequest P (encodeRequest op ck pl ++ rest) = .ok (requestForm P op ck pl, rest) := by
  have hlen : (BitVec.ofNat 16 pl.length).toNat = pl.length := by
    rw [BitVec.toNat_ofNat]
    omega
  simp [encodeRequest, le16, le32, decodeRequest, unle16_le16, unle32_le32, hlen]

/-- What is read as a request is a header, whose length field counts the payload, and what follows it. -/
theorem decodeRequest_ok {P : Params} {bs rest : Bytes} {i : Instr} (h : decodeRequest P bs = .ok (i, rest)) :
    ∃ op ck pl, i = requestForm P op ck pl ∧ pl.length ≤ 65535 ∧ encodeRequest op ck pl ++ rest = bs := by
  unfold decodeRequest at h
  split at h
  case h_1 => cases h
  case h_2 d r =>
    split_ifs at h with hdir
    split at h
    case h_2 => cases h
    case h_1 op l0 l1 c0 c1 c2 c3 r' =>
      dsimp only at h
      split_ifs at h with hshort
      cases h
      have hlen : (r'.take (unle16 l0 l1).toNat).length = (unle16 l0 l1).toNat := by
        rw [List.length_take]
        omega
      refine ⟨op, unle32 c0 c1 c2 c3, _, rfl, ?_, ?_⟩
      · rw [hlen]
        have := (unle16 l0 l1).isLt
        omega
      · rw [encodeRequest, hlen, BitVec.ofNat_toNat, BitVec.setWidth_eq, le16_unle16, le32_unle32, hdir]
        simp

/-! ### Received messages -/

theorem responseForm_spec (P : Params) (op : Byte) (len : Half) (v : Quad) (rem st : Bytes) :
    layerOf (responseForm P op len v rem st) = .received ∧
    (responseForm P op len v rem st).wf P = (st.length == P.nStatus) ∧
    encode P (responseForm P op len v rem st) = encodeResponse op len v rem st := by
  unfold responseForm
  split_ifs with hsync hread
  · subst hsync
    exact ⟨rfl, rfl, rfl⟩
  · subst hread
    exact ⟨rfl, rfl, rfl⟩
  · refine ⟨rfl, ?_, rfl⟩
    simp [Instr.wf, hsync, hread]

/-- A well-formed instruction of the received level is MSG.ILLEGAL or the row of a response. -/
theorem exists_responseForm {P : Params} {i : Instr} (hP : P.WF) (hi : i.wf P = true) (hl : layerOf i = .received) :
    (∃ f, i = .msgIllegal f) ∨
    ∃ op len v rem st, i = responseForm P op len v rem st ∧ st.length = P.nStatus := by
  have hops : P.opReadReg ≠ P.opSync := by
    obtain ⟨-, -, -, -, -, -, hops, -⟩ := hP
    exact hops.symm
  cases i with
  | msgIllegal f => exact .inl ⟨f, rfl⟩
  | respSync len v rem st => exact .inr ⟨P.opSync, len, v, rem, st, (if_pos rfl).symm, eq_of_beq hi⟩
  | respReadReg len v rem st =>
    exact .inr ⟨P.opReadReg, len, v, rem, st, by rw [responseForm, if_neg hops, if_pos rfl], eq_of_beq hi⟩
  | respGeneric op len v rem st =>
    simp only [Instr.wf, Bool.and_eq_true, bne_iff_ne, beq_iff_eq] at hi
    obtain ⟨⟨hsync, hread⟩, hlen⟩ := hi
    exact .inr ⟨op, len, v, rem, st, by rw [responseForm, if_neg hsync, if_neg hread], hlen⟩
  | _ => cases hl

theorem decodeReceived_short {P : Params} {f : Bytes} (h : f.length < minRespLen P) :
    decodeReceived P f = .msgIllegal f := if_pos h

/-- A payload of at least the minimum length has a whole header, and its direction marker decides (R67, R72). -/
theorem decodeReceived_header {P : Params} {f : Bytes} (h : minRespLen P ≤ f.length) :
    ∃ d op l0 l1 v0 v1 v2 v3 r, f = d :: op :: l0 :: l1 :: v0 :: v1 :: v2 :: v3 :: r ∧ P.nStatus ≤ r.length ∧
      decodeReceived P f =
        if d = dirResp then
          responseForm P op (unle16 l0 l1) ⟨v0, v1, v2, v3⟩ (r.take (r.length - P.nStatus))
            (r.drop (r.length - P.nStatus))
        else .msgIllegal f := by
  rw [minRespLen] at h
  have hheader : 8 ≤ f.length := by omega
  match f, hheader with
  | d :: op :: l0 :: l1 :: v0 :: v1 :: v2 :: v3 :: r, _ =>
    simp only [List.length_cons] at h
    refine ⟨d, op, l0, l1, v0, v1, v2, v3, r, rfl, by omega, if_neg ?_⟩
    simp only [List.length_cons, minRespLen]
    omega

theorem decodeReceived_wrongDirection {P : Params} {f : Bytes} (h : f.head? ≠ some dirResp) :
    decodeReceived P f = .msgIllegal f := by
  by_cases hshort : f.length < minRespLen P
  · exact decodeReceived_short hshort
  · obtain ⟨d, op, l0, l1, v0, v1, v2, v3, r, rfl, -, hread⟩ := decodeReceived_header (Nat.not_lt.mp hshort)
    have hd : d ≠ dirResp := fun e => h (congrArg some e)
    rw [hread, if_neg hd]

/-- An illegal message is too short or has a wrong direction marker (R72). -/
theorem msgIllegal_wf_iff {P : Params} {f : Bytes} :
    (Instr.msgIllegal f).wf P = true ↔ f.length < minRespLen P ∨ f.head? ≠ some dirResp := by
  simp [Instr.wf, minRespLen, dirResp]

theorem decodeReceived_msgIllegal {P : Params} {f : Bytes} (h : (Instr.msgIllegal f).wf P = true) :
    decodeReceived P f = .msgIllegal f :=
  (msgIllegal_wf_iff.mp h).elim decodeReceived_short decodeReceived_wrongDirection

theorem decodeReceived_encodeResponse (P : Params) (op : Byte) (len : Half) (v : Quad) (rem : Bytes) {st : Bytes}
    (h : st.length = P.nStatus) :
    decodeReceived P (encodeResponse op len v rem st) = responseForm P op len v rem st := by
  have hlong : minRespLen P ≤ (encodeResponse op len v rem st).length := by
    rw [length_encodeResponse, minRespLen]
    omega
  obtain ⟨d, op', l0, l1, v0, v1, v2, v3, r, hf, -, hread⟩ := decodeReceived_header hlong
  rw [hread]
  obtain ⟨b0, b1, b2, b3⟩ := v
  cases hf
  simp [unle16_le16, h]

/-- What is read from a payload is well formed and has that payload's bytes. -/
theorem decodeReceived_spec (P : Params) (f : Bytes) :
    layerOf (decodeReceived P f) = .received ∧ (decodeReceived P f).wf P = true ∧ encode P (decodeReceived P f) = f := by
  by_cases hshort : f.length < minRespLen P
  · rw [decodeReceived_short hshort]
    exact ⟨rfl, msgIllegal_wf_iff.mpr (.inl hshort), rfl⟩
  · obtain ⟨d, op, l0, l1, v0, v1, v2, v3, r, rfl, hlen, hread⟩ := decodeReceived_header (Nat.not_lt.mp hshort)
    rw [hread]
    split_ifs with hd
    · obtain ⟨hlayer, hwf, hbytes⟩ := responseForm_spec P op (unle16 l0 l1) ⟨v0, v1, v2, v3⟩
        (r.take (r.length - P.nStatus)) (r.drop (r.length - P.nStatus))
      refine ⟨hlayer, ?_, ?_⟩
      · rw [hwf, List.length_drop, beq_iff_eq]
        omega
      · rw [hbytes, encodeResponse, le16_unle16, hd]
        simp [Quad.toBytes]
    · exact ⟨rfl, msgIllegal_wf_iff.mpr (.inr fun e => hd (Option.some.inj e)), rfl⟩

/-! ### The decoder and the encoder -/

/-- Settles O10: level by level, each row read back from its bytes. -/
theorem decodeInvertsEncode : Obligations.DecodeInvertsEncode := by
  intro P i hP hi hop
  cases hl : layerOf i with
  | link =>
    have hread := decodeLink_encode hP hi hl
    exact ⟨by simpa [decode] using hread [], fun rest _ => hread rest⟩
  | request =>
    obtain ⟨op, ck, pl, rfl, hlen⟩ := exists_requestForm hP hi hl
    obtain ⟨-, -, hbytes, -⟩ := requestForm_spec P op ck pl
    have hread := decodeRequest_encodeRequest P op ck hlen
    rw [hbytes]
    exact ⟨by simpa [decode] using hread [], fun rest _ => hread rest⟩
  | received =>
    refine ⟨?_, fun _ hnot => absurd rfl hnot⟩
    rcases exists_responseForm hP hi hl with ⟨f, rfl⟩ | ⟨op, len, v, rem, st, rfl, hst⟩
    · rw [encode, decode, decodeReceived_msgIllegal hi]
    · obtain ⟨-, -, hbytes⟩ := responseForm_spec P op len v rem st
      rw [hbytes, decode, decodeReceived_encodeResponse P op len v rem hst]
  | operation => exact absurd hl hop

/-- Settles O11: level by level, what is read is a row with the bytes read. -/
theorem encodeInvertsDecode : Obligations.EncodeInvertsDecode := by
  intro P l bs rest i hP h
  cases l with
  | link => exact decodeLink_ok hP h
  | request =>
    obtain ⟨op, ck, pl, rfl, hlen, hbs⟩ := decodeRequest_ok h
    obtain ⟨hlayer, hwf, hbytes, -⟩ := requestForm_spec P op ck pl
    exact ⟨hlayer, hwf.trans (decide_eq_true hlen), by rw [hbytes, hbs]⟩
  | received =>
    cases h
    obtain ⟨hlayer, hwf, hbytes⟩ := decodeReceived_spec P bs
    exact ⟨hlayer, hwf, by rw [hbytes, List.append_nil]⟩
  | operation => cases h

/-- Settles O9: each of the nine words is read by evaluation. -/
theorem sampleWordsDecode : Obligations.SampleWordsDecode :=
  ⟨rfl, rfl, rfl, rfl, rfl, rfl, rfl, rfl, rfl⟩

/-! ### SER and PARSE there and back (41_wiremessage.md) -/

/-- SER's bytes are read back as the row that carries the Command. -/
theorem decodeRequest_serialise (P : Params) {c : Command} (h : c.WF) :
    ∃ i, decodeRequest P (serialise c) = .ok (i, []) ∧ commandOf P i = some c := by
  obtain ⟨op, ck, pl⟩ := c
  obtain ⟨-, -, -, hcmd⟩ := requestForm_spec P op ck pl
  refine ⟨requestForm P op ck pl, ?_, hcmd⟩
  rw [← encodeRequest_eq_serialise, ← List.append_nil (encodeRequest op ck pl), decodeRequest_encodeRequest P op ck h]

theorem serialise_injective {c d : Command} (hc : c.WF) (hd : d.WF) (h : serialise c = serialise d) : c = d := by
  obtain ⟨i, hi, hic⟩ := decodeRequest_serialise defaultParams hc
  obtain ⟨j, hj, hjd⟩ := decodeRequest_serialise defaultParams hd
  rw [h, hj] at hi
  cases hi
  exact Option.some.inj (hic.symm.trans hjd)

theorem length_serialise (c : Command) : (serialise c).length = 8 + c.payload.length :=
  length_encodeRequest c.opcode c.checksum c.payload

/-- The checksum stands at the bytes 4 to 7. -/
theorem serialise_zero_checksum {c : Command} {k : Nat} (hc : c.checksum = 0#32) (hlo : 4 ≤ k) (hhi : k ≤ 7) :
    (serialise c)[k]? = some 0x00#8 := by
  have hzero : le32 c.checksum = [0x00#8, 0x00#8, 0x00#8, 0x00#8] := by
    rw [hc]
    rfl
  rw [serialise, hzero]
  interval_cases k <;> rfl

/-- Settles O32: the layout of SER gives the lengths and the checksum, reading it back gives injectivity. -/
theorem serProperties : Obligations.SerProperties := by
  refine ⟨fun c hc => ⟨length_serialise c, rfl, ?_⟩, fun c d => serialise_injective, fun P a k hlo hhi =>
    ⟨serialise_zero_checksum rfl hlo hhi, serialise_zero_checksum rfl hlo hhi⟩⟩
  refine ⟨BitVec.ofNat 8 c.payload.length, BitVec.ofNat 8 (c.payload.length / 256), ?_, ?_, ?_⟩
  · rw [serialise, le16_ofNat]
    rfl
  · rw [serialise, le16_ofNat]
    rfl
  · have hlen : c.payload.length ≤ 65535 := hc
    rw [BitVec.toNat_ofNat, BitVec.toNat_ofNat]
    omega

/-- PARSE of a response takes opcode, value and status, and keeps the whole payload. -/
theorem parseResponse_encodeResponse (P : Params) (op : Byte) (len : Half) (v : Quad) (rem : Bytes) {st : Bytes}
    (h : st.length = P.nStatus) :
    parseResponse P (encodeResponse op len v rem st) = .ok ⟨op, v, st, encodeResponse op len v rem st⟩ := by
  have hlong : minRespLen P ≤ (encodeResponse op len v rem st).length := by
    rw [length_encodeResponse, minRespLen]
    omega
  have hstatus : (encodeResponse op len v rem st).drop ((encodeResponse op len v rem st).length - P.nStatus) = st := by
    have hsplit : encodeResponse op len v rem st = (dirResp :: op :: (le16 len ++ v.toBytes ++ rem)) ++ st := rfl
    rw [hsplit, List.length_append, h, Nat.add_sub_cancel, List.drop_left]
  obtain ⟨d, op', l0, l1, v0, v1, v2, v3, r, hf, hparse⟩ := parseResponse_header hlong
  rw [hparse, hstatus]
  obtain ⟨b0, b1, b2, b3⟩ := v
  cases hf
  exact if_pos rfl

/-- Settles O34: the length field and the remainder do not appear in the Response but in its `raw`. -/
theorem parseReadsOnlyItsFields : Obligations.ParseReadsOnlyItsFields :=
  fun P op len len' v rem rem' _ hst =>
    ⟨_, _, parseResponse_encodeResponse P op len v rem hst, parseResponse_encodeResponse P op len' v rem' hst,
      rfl, rfl, rfl, rfl, rfl, rfl⟩

theorem parseResponse_total (P : Params) (f : Bytes) :
    (∃ x, parseResponse P f = .ok x) ∨ parseResponse P f = .error .parseError := by
  by_cases hshort : f.length < minRespLen P
  · exact .inr (parseResponse_short hshort)
  · obtain ⟨d, op, l0, l1, v0, v1, v2, v3, r, -, hparse⟩ := parseResponse_header (Nat.not_lt.mp hshort)
    rw [hparse]
    split_ifs
    · exact .inl ⟨_, rfl⟩
    · exact .inr rfl

/-- A request has the wrong direction marker for PARSE. -/
theorem parseResponse_serialise (P : Params) (c : Command) : parseResponse P (serialise c) = .error .parseError :=
  parseResponse_wrongDirection fun h : some dirReq = some dirResp => by cases h

/-- Settles O35: PARSE has the two outcomes, and a request's direction marker gives the second. -/
theorem parseIsTotalAndRejectsRequests : Obligations.ParseIsTotalAndRejectsRequests := by
  intro s hidle
  refine ⟨fun f => ⟨parseResult s.cfg f, execParse_of_idle hidle f, ?_⟩, fun c => ?_⟩
  · rw [parseResult]
    rcases parseResponse_total s.cfg f with ⟨x, hx⟩ | herror
    · rw [hx]
      exact .inl ⟨x, rfl⟩
    · rw [herror]
      exact .inr rfl
  · rw [execParse_of_idle hidle, parseResult, parseResponse_serialise]

end Sys2Proof.Machine
end

section
/-! PROOFS. Frames (30_encoding.md section 2, 40_framecodec.md): the length and the body of a frame, the byte-serial
encoder, the decoder over a list of bytes. -/

namespace Sys2Proof.Machine

/-! ### The body of a frame -/

theorem encByte_delim (P : Params) : encByte P P.delim = [P.esc, P.escDelim] := if_pos rfl

theorem encByte_esc {P : Params} (hP : P.WF) : encByte P P.esc = [P.esc, P.escEsc] := by
  have hne : P.esc ≠ P.delim := hP.1.symm
  rw [encByte, if_neg hne, if_pos rfl]

theorem encByte_lit {P : Params} {b : Byte} (hd : b ≠ P.delim) (he : b ≠ P.esc) : encByte P b = [b] := by
  rw [encByte, if_neg hd, if_neg he]

/-- The symbol of a payload byte is that byte, or `ESC` and one of the two codes. -/
theorem encByte_cases (P : Params) (b : Byte) :
    (b ≠ P.delim ∧ b ≠ P.esc ∧ encByte P b = [b]) ∨
    ((b = P.delim ∨ b = P.esc) ∧ ∃ c, (c = P.escDelim ∨ c = P.escEsc) ∧ encByte P b = [P.esc, c]) := by
  by_cases hd : b = P.delim
  · exact .inr ⟨.inl hd, P.escDelim, .inl rfl, if_pos hd⟩
  · by_cases he : b = P.esc
    · exact .inr ⟨.inr he, P.escEsc, .inr rfl, by rw [encByte, if_neg hd, if_pos he]⟩
    · exact .inl ⟨hd, he, encByte_lit hd he⟩

/-- Each special byte of the payload costs one byte more. -/
theorem length_encBody (P : Params) (p : Bytes) : (encBody P p).length = p.length + specials P p := by
  induction p with
  | nil => rfl
  | cons b p ih =>
    rw [encBody, List.length_append, ih, specials, specials, List.countP_cons]
    rcases encByte_cases P b with ⟨hd, he, hb⟩ | ⟨hspecial, c, -, hb⟩ <;> rw [hb]
    · simp [hd, he]
      omega
    · simp [hspecial]
      omega

theorem length_encFrame (P : Params) (p : Bytes) : (encFrame P p).length = p.length + 2 + specials P p := by
  rw [encFrame, List.length_cons, List.length_append, length_encBody, List.length_singleton]
  omega

/-- Settles O12: a frame is longer than its body by two, and a body by its special bytes; a payload of delimiters attains the
upper bound. -/
theorem frameLength : Obligations.FrameLength := by
  intro P
  refine ⟨length_encFrame P, rfl, fun p => ?_, fun n => ⟨List.replicate n P.delim, List.length_replicate, ?_⟩⟩
  · have hle : specials P p ≤ p.length := List.countP_le_length
    rw [length_encFrame]
    omega
  · have hall : specials P (List.replicate n P.delim) = n := by simp [specials, List.countP_replicate]
    rw [length_encFrame, hall, List.length_replicate]
    omega

theorem delim_not_mem_encBody {P : Params} (hP : P.WF) (p : Bytes) : P.delim ∉ encBody P p := by
  obtain ⟨hesc, hcodeD, hcodeE, -⟩ := hP
  induction p with
  | nil => exact List.not_mem_nil
  | cons b p ih =>
    rw [encBody, List.mem_append, not_or]
    refine ⟨?_, ih⟩
    rcases encByte_cases P b with ⟨hd, -, hb⟩ | ⟨-, c, hc, hb⟩ <;> rw [hb]
    · simpa using hd.symm
    · rcases hc with rfl | rfl
      · simp [hesc, hcodeD]
      · simp [hesc, hcodeE]

/-- In a body each `ESC` is followed by a code byte, and is not preceded by `ESC` (R63 b). -/
theorem encBody_esc {P : Params} (hP : P.WF) (p : Bytes) (k : Nat) (hk : (encBody P p)[k]? = some P.esc) :
    ((encBody P p)[k + 1]? = some P.escDelim ∨ (encBody P p)[k + 1]? = some P.escEsc) ∧
    ∀ j, j + 1 = k → (encBody P p)[j]? ≠ some P.esc := by
  induction p generalizing k with
  | nil => simp [encBody] at hk
  | cons b p ih =>
    rw [encBody] at hk ⊢
    rcases encByte_cases P b with ⟨-, he, hb⟩ | ⟨-, c, hc, hb⟩ <;> rw [hb] at hk ⊢
    · -- a literal, which is no `ESC`
      match k with
      | 0 => exact absurd (Option.some.inj hk) he
      | k + 1 =>
        obtain ⟨hnext, hprev⟩ := ih k hk
        refine ⟨hnext, fun j hj => ?_⟩
        match j with
        | 0 => exact fun h => he (Option.some.inj h)
        | j + 1 => exact hprev j (by omega)
    · -- an escape, whose second byte is no `ESC`
      have hce : c ≠ P.esc := by
        obtain ⟨-, -, -, hcodeD, hcodeE, -⟩ := hP
        rcases hc with rfl | rfl
        · exact hcodeD.symm
        · exact hcodeE.symm
      match k with
      | 0 =>
        refine ⟨hc.imp (congrArg some) (congrArg some), fun j hj => ?_⟩
        omega
      | 1 => exact absurd (Option.some.inj hk) hce
      | k + 2 =>
        obtain ⟨hnext, hprev⟩ := ih k hk
        refine ⟨hnext, fun j hj => ?_⟩
        match j with
        | 0 => omega
        | 1 => exact fun h => hce (Option.some.inj h)
        | j + 2 => exact hprev j (by omega)

/-- Settles O13: (c) follows from (b), because nothing follows the last byte. -/
theorem frameBodyHasNoBareSpecial : Obligations.FrameBodyHasNoBareSpecial := by
  intro P p hP
  refine ⟨delim_not_mem_encBody hP p, encBody_esc hP p, fun hlast => ?_⟩
  rw [List.getLast?_eq_getElem?] at hlast
  have hend : (encBody P p)[(encBody P p).length - 1 + 1]? = none := by
    rw [List.getElem?_eq_none_iff]
    omega
  obtain ⟨hnext, -⟩ := encBody_esc hP p _ hlast
  simp [hend] at hnext

/-! ### The byte-serial encoder -/

theorem emitAll_some {P : Params} {e e' : Emitter} {b : Byte} (h : emit P e = some (b, e')) (n : Nat) :
    emitAll P (n + 1) e = b :: emitAll P n e' := by
  rw [emitAll, h]

theorem emitAll_finished (P : Params) (n : Nat) : emitAll P n .finished = [] := by
  cases n <;> rfl

/-- The bytes of a payload byte's symbol are emitted one after the other. -/
theorem emitAll_body_cons (P : Params) (b : Byte) (p : Bytes) (n : Nat) :
    emitAll P ((encByte P b).length + n) (.body (b :: p)) = encByte P b ++ emitAll P n (.body p) := by
  unfold encByte
  split_ifs with hd he
  · rw [List.length_cons, List.length_singleton, show 1 + 1 + n = n + 1 + 1 by omega,
      emitAll_some (e' := .pending P.escDelim p) (by rw [emit, if_pos hd]), emitAll_some rfl]
    rfl
  · rw [List.length_cons, List.length_singleton, show 1 + 1 + n = n + 1 + 1 by omega,
      emitAll_some (e' := .pending P.escEsc p) (by rw [emit, if_neg hd, if_pos he]), emitAll_some rfl]
    rfl
  · rw [List.length_singleton, Nat.add_comm, emitAll_some (e' := .body p) (by rw [emit, if_neg hd, if_neg he])]
    rfl

theorem emitAll_body (P : Params) (p : Bytes) (n : Nat) :
    emitAll P ((encBody P p).length + 1 + n) (.body p) = encBody P p ++ [P.delim] := by
  induction p with
  | nil =>
    rw [encBody, List.length_nil, Nat.zero_add, Nat.add_comm, emitAll_some rfl, emitAll_finished]
    rfl
  | cons b p ih =>
    rw [encBody, List.length_append, Nat.add_assoc, Nat.add_assoc, emitAll_body_cons, ← Nat.add_assoc, ih,
      List.append_assoc]

/-- Settles O15: the opening delimiter, the symbols, the closing delimiter. -/
theorem byteSerialEncoderEmitsEnc : Obligations.ByteSerialEncoderEmitsEnc := by
  intro P p n
  have hlen : (encFrame P p).length + n = (encBody P p).length + 1 + n + 1 := by
    rw [encFrame, List.length_cons, List.length_append, List.length_singleton]
    omega
  rw [hlen, emitAll_some rfl, emitAll_body, encFrame]

/-! ### The decoder over a list of bytes -/

theorem decRun_more {P : Params} {d d' : Decoder} {b : Byte} (h : decByte P d b = .more d') (r : Bytes) :
    decRun P d (b :: r) = decRun P d' r := by
  rw [decRun, h]

theorem decRun_frame {P : Params} {d : Decoder} {b : Byte} {p : Bytes} (h : decByte P d b = .frame p) (r : Bytes) :
    decRun P d (b :: r) = (.frame p, r) := by
  rw [decRun, h]

theorem decRun_framing {P : Params} {d : Decoder} {b : Byte} (h : decByte P d b = .framing) (r : Bytes) :
    decRun P d (b :: r) = (.framingError, r) := by
  rw [decRun, h]

theorem decByte_data_delim (P : Params) (buf : Bytes) : decByte P ⟨.data, buf⟩ P.delim = .frame buf := if_pos rfl

theorem decByte_data_lit {P : Params} {b : Byte} (hd : b ≠ P.delim) (he : b ≠ P.esc) (buf : Bytes) :
    decByte P ⟨.data, buf⟩ b = .more ⟨.data, buf ++ [b]⟩ := by
  simp [decByte, hd, he]

theorem decByte_escaped_escDelim (P : Params) (buf : Bytes) :
    decByte P ⟨.escaped, buf⟩ P.escDelim = .more ⟨.data, buf ++ [P.delim]⟩ := if_pos rfl

theorem decByte_escaped_escEsc {P : Params} (hP : P.WF) (buf : Bytes) :
    decByte P ⟨.escaped, buf⟩ P.escEsc = .more ⟨.data, buf ++ [P.esc]⟩ := by
  have hcodes : P.escEsc ≠ P.escDelim := by
    obtain ⟨-, -, -, -, -, hcodes, -⟩ := hP
    exact hcodes.symm
  simp [decByte, hcodes]

/-- With `immediate` the list function of R107 in a frame, and behind an `ESC`, is the machine. -/
theorem listData_listEsc_eq_decRun {P : Params} (hP : P.resync = .immediate) (s : Bytes) :
    ∀ buf, listData P buf s = decRun P ⟨.data, buf⟩ s ∧ listEsc P buf s = decRun P ⟨.escaped, buf⟩ s := by
  induction s with
  | nil => exact fun _ => ⟨by rw [listData, decRun], by rw [listEsc, decRun]⟩
  | cons b r ih =>
    intro buf
    constructor
    · rw [listData, decRun]
      simp only [decByte]
      split_ifs
      · rfl
      · exact (ih buf).2
      · exact (ih _).1
    · rw [listEsc, decRun]
      simp only [decByte, hP]
      split_ifs
      · exact (ih _).1
      · exact (ih _).1
      · rfl

/-- Settles O26: while the machine hunts its buffer stays empty, as the list function has it. -/
theorem listDecoderIsTheMachine : Obligations.ListDecoderIsTheMachine := by
  intro P s hP
  rw [listDec, decStart]
  induction s with
  | nil => rfl
  | cons b r ih =>
    rw [listHunt, decRun_more (decByte_hunt P [] b)]
    split_ifs
    · exact (listData_listEsc_eq_decRun hP r []).1
    · exact ih

/-! ### A frame behind other bytes (R108) -/

/-- A hunting decoder discards bytes that are no `DELIM`. -/
theorem decRun_hunt_noise {P : Params} {g : Bytes} (hg : P.delim ∉ g) (r : Bytes) :
    decRun P decStart (g ++ r) = decRun P decStart r := by
  induction g with
  | nil => rfl
  | cons b g ih =>
    rw [List.mem_cons, not_or] at hg
    obtain ⟨hb, hg⟩ := hg
    rw [List.cons_append, decStart, decRun_more (decByte_hunt P [] b), if_neg (Ne.symm hb)]
    exact ih hg

theorem decRun_opening (P : Params) (r : Bytes) : decRun P decStart (P.delim :: r) = decRun P ⟨.data, []⟩ r := by
  rw [decStart, decRun_more (decByte_hunt P [] P.delim), if_pos rfl]

/-- The symbol of a payload byte adds that byte to the buffer (R103). -/
theorem decRun_encByte {P : Params} (hP : P.WF) (buf : Bytes) (b : Byte) (r : Bytes) :
    decRun P ⟨.data, buf⟩ (encByte P b ++ r) = decRun P ⟨.data, buf ++ [b]⟩ r := by
  by_cases hd : b = P.delim
  · subst hd
    rw [encByte_delim, List.cons_append, decRun_more (decByte_data_esc hP buf), List.singleton_append,
      decRun_more (decByte_escaped_escDelim P buf)]
  · by_cases he : b = P.esc
    · subst he
      rw [encByte_esc hP, List.cons_append, decRun_more (decByte_data_esc hP buf), List.singleton_append,
        decRun_more (decByte_escaped_escEsc hP buf)]
    · rw [encByte_lit hd he, List.singleton_append, decRun_more (decByte_data_lit hd he buf)]

theorem decRun_encBody {P : Params} (hP : P.WF) (buf p r : Bytes) :
    decRun P ⟨.data, buf⟩ (encBody P p ++ r) = decRun P ⟨.data, buf ++ p⟩ r := by
  induction p generalizing buf with
  | nil => rw [encBody, List.nil_append, List.append_nil]
  | cons b p ih => rw [encBody, List.append_assoc, decRun_encByte hP, ih, List.append_assoc, List.singleton_append]

/-- A frame decodes to its payload and leaves what follows it. -/
theorem decRun_encFrame {P : Params} (hP : P.WF) (p t : Bytes) : decRun P decStart (encFrame P p ++ t) = (.frame p, t) := by
  rw [encFrame, List.cons_append, decRun_opening, List.append_assoc, decRun_encBody hP, List.nil_append,
    List.singleton_append, decRun_frame (decByte_data_delim P p)]

/-- Outside `HUNT` no byte leads back there, and a `DELIM` ends the DEC. -/
theorem decByte_outside_hunt {P : Params} {d : Decoder} (hd : d.st ≠ .hunt) (b : Byte) :
    ∀ d', decByte P d b = .more d' → d'.st ≠ .hunt := by
  obtain ⟨st, buf⟩ := d
  intro d' h
  cases st <;> simp only [decByte] at h
  case hunt => exact absurd rfl hd
  case data => split_ifs at h <;> cases h <;> nofun
  case escaped =>
    split_ifs at h
    · cases h; nofun
    · cases h; nofun
    · split at h <;> cases h
    · split at h <;> cases h
      nofun
  case drain =>
    split_ifs at h
    cases h
    nofun

theorem decByte_delim_outside_hunt {P : Params} (hP : P.WF) {d : Decoder} (hd : d.st ≠ .hunt) :
    ∀ d', decByte P d P.delim ≠ .more d' := by
  obtain ⟨-, hcodeD, hcodeE, -⟩ := hP
  obtain ⟨st, buf⟩ := d
  intro d'
  cases st with
  | hunt => exact absurd rfl hd
  | data => simp [decByte]
  | escaped => cases hr : P.resync <;> simp [decByte, hcodeD, hcodeE, hr]
  | drain => simp [decByte]

/-- Outside `HUNT` a DEC is over at the first `DELIM` at the latest, so it leaves all that follows one. -/
theorem decRun_stops_at_delim {P : Params} (hP : P.WF) (r : Bytes) (u : Bytes) :
    ∀ d : Decoder, d.st ≠ .hunt → r.length ≤ (decRun P d (u ++ P.delim :: r)).2.length := by
  induction u with
  | nil =>
    intro d hd
    rw [List.nil_append]
    cases hb : decByte P d P.delim with
    | more d' => exact absurd hb (decByte_delim_outside_hunt hP hd d')
    | frame p => rw [decRun_frame hb]
    | framing => rw [decRun_framing hb]
  | cons b u ih =>
    intro d hd
    rw [List.cons_append]
    cases hb : decByte P d b with
    | more d' =>
      rw [decRun_more hb]
      exact ih d' (decByte_outside_hunt hd b d' hb)
    | frame p =>
      rw [decRun_frame hb, List.length_append, List.length_cons]
      omega
    | framing =>
      rw [decRun_framing hb, List.length_append, List.length_cons]
      omega

/-- Settles O27: the noise is discarded and the frame decodes; or the `DELIM` in the noise opens a frame, which is over at
the true frame's opening delimiter at the latest, before its body. -/
theorem roundTripBehindGarbage : Obligations.RoundTripBehindGarbage := by
  intro P g p t hP
  constructor
  · intro hg
    rw [List.append_assoc, decRun_hunt_noise hg, decRun_encFrame hP]
  · intro hg hrun
    obtain ⟨g₁, g₂, rfl, hg₁⟩ := List.eq_append_cons_of_mem hg
    have hsplit : g₁ ++ P.delim :: g₂ ++ encFrame P p ++ t =
        g₁ ++ P.delim :: (g₂ ++ P.delim :: (encBody P p ++ [P.delim] ++ t)) := by
      simp [encFrame]
    rw [hsplit, decRun_hunt_noise hg₁, decRun_opening] at hrun
    have hrest := decRun_stops_at_delim hP (encBody P p ++ [P.delim] ++ t) g₂ ⟨.data, []⟩ nofun
    simp only [hrun, List.length_append, List.length_singleton] at hrest
    omega

end Sys2Proof.Machine
end

section
/-! PROOFS. The running DEC (40_framecodec.md section 2): its start, its turn at each kind of byte, the link symbols, the
failed read, and a DEC requested directly from its turns to its return. -/

namespace Sys2Proof.Machine

/-! ### The start of a DEC -/

theorem whenOpen_of_open {s : State} (h : s.isOpen) (k : State → Out) : whenOpen s k = k s := if_pos h

theorem whenState_of_eq {s : State} {p : SessionState} (h : s.psState = p) (k : State → Out) : whenState p s k = k s :=
  if_pos h

theorem whenHandle_of_handle {s : State} (h : s.handle.isSome = true) (k : State → Out) : whenHandle s k = k s := if_pos h

/-- Settles O16: the preconditions hold, and the DEC is `decStart`. -/
theorem decStartsHunting : Obligations.DecStartsHunting := by
  intro s hidle hopen hh
  rw [exec, execDec, whenIdle_of_idle hidle, whenOpen_of_open hopen, whenHandle_of_handle hh, decStart]

/-! ### What ends a DEC -/

theorem feed_of_frame {s : State} {d : Decoder} {b : Byte} {p : Bytes} (hd : s.dec = some d)
    (hb : decByte s.cfg d b = .frame p) : feed b s = decFrame p s := by
  simp [feed, hd, hb]

theorem decFrame_direct {s : State} (p : Bytes) (h : s.op = some .dec) :
    decFrame p s = .next { s with dec := none, op := none, res := some (.frame p) } := by
  simp [decFrame, exchanging, h, State.finish]

theorem decFrame_exchanging {s : State} (p : Bytes) (h : exchanging s.op = true) :
    decFrame p s = .next { s with dec := none, rxMsg := some p } := if_pos h

/-! ### Inside a frame -/

theorem fetchSymbol_data {s : State} {b : Byte} {i : Instr} (buf : Bytes) (h : decodeLink s.cfg [b] = .ok (i, [])) :
    fetchSymbol ⟨.data, buf⟩ b s = .run i s := by
  simp [fetchSymbol, h]

theorem fetchSymbol_escaped {s : State} {b : Byte} {i : Instr} (buf : Bytes)
    (h : decodeLink s.cfg [s.cfg.esc, b] = .ok (i, [])) : fetchSymbol ⟨.escaped, buf⟩ b s = .run i s := by
  simp [fetchSymbol, h]

/-- Settles O6: the DEC's turn reads the symbol that its byte completes. -/
theorem stepRunsLinkSymbol : Obligations.StepRunsLinkSymbol := by
  intro s b r buf ev i hreads hsymbol
  rcases hsymbol with ⟨hdec, hsym⟩ | ⟨hdec, hsym⟩
  · rw [step_reads_symbol hreads hdec, fetchSymbol_data (s := { s with events := ev, rxq := r }) buf hsym, Action.out]
  · rw [step_reads_symbol hreads hdec, fetchSymbol_escaped (s := { s with events := ev, rxq := r }) buf hsym, Action.out]

/-- In `DATA` any byte but `ESC` is a symbol, which gives the DEC that byte, under any parameters. -/
theorem fetchSymbol_data_feed {s : State} {b : Byte} (buf : Bytes) (h : b ≠ s.cfg.esc) :
    (fetchSymbol ⟨.data, buf⟩ b s).out = feed b s := by
  by_cases hd : b = s.cfg.delim
  · subst hd
    rw [fetchSymbol_data buf (decodeLink_delim s.cfg []), Action.out]
    rfl
  · rw [fetchSymbol_data buf (decodeLink_lit hd h []), Action.out]
    rfl

/-- Settles O19: the byte is a literal for the buffer, or ends the DEC with its frame. -/
theorem dataExtendsOrClosesFrame : Obligations.DataExtendsOrClosesFrame := by
  intro s b r buf ev hreads hdec hesc
  have hfeed : step s = feed b { s with events := ev, rxq := r } := by
    rw [step_reads_symbol hreads hdec]
    exact fetchSymbol_data_feed (s := { s with events := ev, rxq := r }) buf hesc
  rw [hfeed]
  refine ⟨fun hb => feed_of_more hdec (decByte_data_lit hb hesc buf), fun hb hop => ?_, fun hb hexch => ?_⟩
  · subst hb
    rw [feed_of_frame (s := { s with events := ev, rxq := r }) hdec (decByte_data_delim s.cfg buf)]
    exact decFrame_direct buf hop
  · subst hb
    rw [feed_of_frame (s := { s with events := ev, rxq := r }) hdec (decByte_data_delim s.cfg buf)]
    exact decFrame_exchanging buf hexch

/-- Settles O20: the DEC goes on with the byte that the code stands for. -/
theorem escapeCodesAreUndone : Obligations.EscapeCodesAreUndone := by
  intro s r buf ev hcfg hdec
  refine ⟨fun hreads => ?_, fun hreads => ?_⟩ <;> rw [step_reads hcfg hreads hdec]
  · exact feed_of_more hdec (decByte_escaped_escDelim s.cfg buf)
  · exact feed_of_more hdec (decByte_escaped_escEsc hcfg buf)

/-! ### Malformed escapes and the discarding of R111 -/

/-- A malformed escape is FramingError at once under `immediate`, and under `drain` if the offending byte is `DELIM`. -/
theorem decByte_escaped_framing {P : Params} {b : Byte} (buf : Bytes) (hd : b ≠ P.escDelim) (he : b ≠ P.escEsc)
    (h : P.resync = .immediate ∨ b = P.delim) : decByte P ⟨.escaped, buf⟩ b = .framing := by
  rcases h with h | h
  · exact decByte_escaped_malformed buf h hd he
  · subst h
    cases hr : P.resync <;> simp [decByte, hd, he, hr]

theorem decByte_escaped_drain {P : Params} {b : Byte} (buf : Bytes) (hP : P.resync = .drain) (hd : b ≠ P.escDelim)
    (he : b ≠ P.escEsc) (hb : b ≠ P.delim) : decByte P ⟨.escaped, buf⟩ b = .more ⟨.drain, []⟩ := by
  simp [decByte, hd, he, hb, hP]

theorem decByte_drain_other {P : Params} {b : Byte} (buf : Bytes) (hb : b ≠ P.delim) :
    decByte P ⟨.drain, buf⟩ b = .more ⟨.drain, buf⟩ := by
  simp [decByte, hb]

theorem decByte_drain_delim (P : Params) (buf : Bytes) : decByte P ⟨.drain, buf⟩ P.delim = .framing := by
  simp [decByte]

/-- Settles O22: the DEC discards until the `DELIM`, which ends it with FramingError, or until the deadline. -/
theorem drainDiscardsToDelimiter : Obligations.DrainDiscardsToDelimiter := by
  intro s ev hcfg hdrain
  have hne := hcfg
  obtain ⟨-, hcodeD, hcodeE, -⟩ := hne
  refine ⟨fun b r buf hreads hdec hd he hb => ?_, fun b r buf hreads hdec hb => ?_, fun r buf st hreads hdec hst => ?_,
    fun d hev hdec hop => ?_⟩
  · rw [step_reads hcfg hreads hdec]
    exact feed_of_more hdec (decByte_escaped_drain buf hdrain hd he hb)
  · rw [step_reads hcfg hreads hdec]
    exact feed_of_more hdec (decByte_drain_other buf hb)
  · have hframing : decByte s.cfg ⟨st, buf⟩ s.cfg.delim = .framing := by
      rcases hst with rfl | rfl
      · exact decByte_escaped_framing buf hcodeD hcodeE (.inr rfl)
      · exact decByte_drain_delim s.cfg buf
    rw [step_reads hcfg hreads hdec, feed_of_framing (s := { s with events := ev, rxq := r }) hdec hframing]
    exact ⟨fun hop => decError_direct .framingError hop, fun hexch => decError_exchanging .framingError hexch⟩
  · exact (deadlineRaisesTimeout s d ev hev hdec).1 hop

/-! ### The link symbols -/

theorem feed_of_no_dec {s : State} (h : s.dec = none) (b : Byte) : feed b s = .next { s with rxq := s.rxq ++ [b] } := by
  simp [feed, h]

/-- A hunting DEC discards a byte that is no `DELIM`, and stays as it is. -/
theorem feed_hunt_discards {s : State} {buf : Bytes} {b : Byte} (hd : s.dec = some ⟨.hunt, buf⟩) (hb : b ≠ s.cfg.delim) :
    feed b s = .next s := by
  rw [feed_of_more hd (decByte_hunt s.cfg buf b), if_neg hb, ← hd]

theorem feedEscape_of_no_dec {s : State} (h : s.dec = none) (b : Byte) :
    feedEscape b s = .next { s with rxq := s.rxq ++ [s.cfg.esc, b] } := by
  have hst : s.dec.map Decoder.st ≠ some .escaped := by simp [h]
  rw [feedEscape, if_neg hst, feed_of_no_dec h, andThen, feed_of_no_dec (s := { s with rxq := s.rxq ++ [s.cfg.esc] }) h,
    List.append_assoc, List.singleton_append]

/-- Before the second byte of an escape its `ESC` is taken. -/
theorem feedEscape_of_esc {s t : State} {st : DecSt} {buf : Bytes} (hd : s.dec = some ⟨st, buf⟩) (hst : st ≠ .escaped)
    (h : feed s.cfg.esc s = .next t) (b : Byte) : feedEscape b s = feed b t := by
  have hne : s.dec.map Decoder.st ≠ some .escaped := by simpa [hd] using hst
  rw [feedEscape, if_neg hne, h, andThen]

theorem feedEscape_hunt_discards {s : State} {buf : Bytes} {b : Byte} (hcfg : s.cfg.WF) (hd : s.dec = some ⟨.hunt, buf⟩)
    (hb : b ≠ s.cfg.delim) : feedEscape b s = .next s := by
  rw [feedEscape_of_esc hd nofun (feed_hunt_discards hd hcfg.1.symm), feed_hunt_discards hd hb]

theorem feedEscape_data {s : State} {buf : Bytes} (hcfg : s.cfg.WF) (hd : s.dec = some ⟨.data, buf⟩) (b : Byte) :
    feedEscape b s = feed b { s with dec := some ⟨.escaped, buf⟩ } :=
  feedEscape_of_esc hd nofun (feed_of_more hd (decByte_data_esc hcfg buf)) b

/-- Settles O23: with no DEC, in `HUNT` and in `DATA`, each symbol as the DEC's taking of its bytes. -/
theorem linkSymbolsMoveTheDecoder : Obligations.LinkSymbolsMoveTheDecoder := by
  intro s buf b hcfg
  have hne := hcfg
  obtain ⟨-, hcodeD, hcodeE, -⟩ := hne
  refine ⟨fun hd => ?_, fun hd => ?_, fun hd => ?_⟩
  · exact ⟨feed_of_no_dec hd _, feedEscape_of_no_dec hd _, feedEscape_of_no_dec hd _, feedEscape_of_no_dec hd b,
      feed_of_no_dec hd b⟩
  · refine ⟨?_, feedEscape_hunt_discards hcfg hd hcodeD.symm, feedEscape_hunt_discards hcfg hd hcodeE.symm,
      fun hb => ⟨feedEscape_hunt_discards hcfg hd hb, feed_hunt_discards hd hb⟩⟩
    exact feed_of_more hd ((decByte_hunt s.cfg buf s.cfg.delim).trans (by rw [if_pos rfl]))
  · have hclose : exec .linkDelim s = decFrame buf s := feed_of_frame hd (decByte_data_delim s.cfg buf)
    have hescaped : ∀ c, feedEscape c s = feed c { s with dec := some ⟨.escaped, buf⟩ } := feedEscape_data hcfg hd
    refine ⟨fun hop => hclose.trans (decFrame_direct buf hop), fun hexch => hclose.trans (decFrame_exchanging buf hexch),
      fun hb he => feed_of_more hd (decByte_data_lit hb he buf), ?_, ?_, fun hcd hce => ⟨fun hat => ?_, fun hdrain hb => ?_⟩⟩
    · exact (hescaped _).trans (feed_of_more rfl (decByte_escaped_escDelim s.cfg buf))
    · exact (hescaped _).trans (feed_of_more rfl (decByte_escaped_escEsc hcfg buf))
    · have hframing : exec (.linkEscbad b) s = decError .framingError { s with dec := some ⟨.escaped, buf⟩ } :=
        (hescaped b).trans (feed_of_framing rfl (decByte_escaped_framing buf hcd hce hat))
      rw [hframing]
      exact ⟨fun hop => decError_direct .framingError hop, fun hexch => decError_exchanging .framingError hexch⟩
    · exact (hescaped b).trans (feed_of_more rfl (decByte_escaped_drain buf hdrain hcd hce hb))

/-! ### The failed read, and events that nobody waits for (60_exceptions.md R212) -/

/-- Nobody waits for the event: no DEC for a failed read or the deadline, no sequencer for the settle event, no transmitter
for its retransmit event; the failure of any other call. -/
def Event.unawaited (e : Event) (s : State) : Prop :=
  (s.dec = none ∧ (e = .failRead ∨ e = .deadline)) ∨ (s.seq = none ∧ e = .settle) ∨
  (s.tx ≠ some .wait ∧ e = .retx) ∨ (∃ k, s.late[k]? = none ∧ e = .lateRetx k) ∨
  e = .failOpen ∨ e = .failWrite ∨ e = .failLine

theorem fired_of_not_waiting {x : Option TxPos} (h : x ≠ some .wait) : x.map TxPos.fired = x := by
  match x with
  | none => rfl
  | some .test => rfl
  | some .write => rfl
  | some .wait => exact absurd rfl h

theorem act_unawaited {e : Event} {s : State} (h : e.unawaited s) : (act e s).out = .next s := by
  rcases h with ⟨hd, rfl | rfl⟩ | ⟨hseq, rfl⟩ | ⟨htx, rfl⟩ | ⟨k, hk, rfl⟩ | rfl | rfl | rfl
  · simp [act, Action.out, readFailed, hd]
  · simp [act, Action.out, hd]
  · simp [act, Action.out, settled, hseq]
  · rw [act, Action.out, fired_of_not_waiting htx]
  · rw [act, Action.out, List.modify_eq_self (List.getElem?_eq_none_iff.mp hk)]
  · rfl
  · rfl
  · rfl

/-- Settles O25: the DEC's read aborts the session; what nobody waits for changes nothing. -/
theorem readFailureIsFatal : Obligations.ReadFailureIsFatal := by
  intro s ev
  refine ⟨fun d hev hdec hh => ?_, fun e hev hnobody => ?_⟩
  · have hfails : readFailed { s with events := ev } = .next (State.transportError { s with events := ev }) := by
      simp [readFailed, hdec, whenHandle, hh]
    rw [step_cons hev]
    exact hfails
  · rw [step_cons hev]
    exact act_unawaited (s := { s with events := ev }) hnobody

/-! ### A DEC from its turns to its return -/

theorem run_one (s : State) : run 1 s = step s := by
  rw [run]
  cases step s <;> rfl

theorem decRun_rest_le (P : Params) (q : Bytes) : ∀ d : Decoder, (decRun P d q).2.length ≤ q.length := by
  induction q with
  | nil => exact fun _ => Nat.le_refl _
  | cons b r ih =>
    intro d
    rw [List.length_cons]
    cases hb : decByte P d b with
    | more d' =>
      rw [decRun_more hb]
      have := ih d'
      omega
    | frame p => rw [decRun_frame hb]; exact Nat.le_succ _
    | framing => rw [decRun_framing hb]; exact Nat.le_succ _

/-- What the machine does when a DEC comes to its result (40_framecodec.md R98, R105). -/
def DecResult.give (x : DecResult) (s : State) : Out :=
  match x with
  | .frame p => decFrame p s
  | .framingError => decError .framingError s
  | .timeoutError => decError .timeoutError s

/-- A result is given whatever the decoder's last state was. -/
theorem DecResult.give_dec (x : DecResult) (s : State) (d : Option Decoder) : x.give { s with dec := d } = x.give s := by
  cases x <;> rfl

theorem step_reads_more {s : State} {b : Byte} {r : Bytes} {ev : List Event} {d d' : Decoder} (hw : s.cfg.WF)
    (h : s.reads b r ev) (hd : s.dec = some d) (hb : decByte s.cfg d b = .more d') :
    step s = .next { s with events := ev, rxq := r, dec := some d' } :=
  (step_reads hw h hd).trans (feed_of_more hd hb)

/-- The turns of a running DEC up to its frame or its FramingError: it has consumed what `decRun` consumes. -/
theorem run_decRun {x : DecResult} {rest : Bytes} {ev : List Event} (hx : x ≠ .timeoutError) (q : Bytes) :
    ∀ (s : State) (d : Decoder), s.cfg.WF → s.dec = some d → s.receiving → s.rxq = q → decRun s.cfg d q = (x, rest) →
      s.events = List.replicate (q.length - rest.length) .rx ++ ev →
      run (q.length - rest.length) s = x.give { s with events := ev, rxq := rest } := by
  induction q with
  | nil =>
    intro s d _ _ _ _ hrun
    rw [decRun] at hrun
    cases hrun
    exact absurd rfl hx
  | cons b r ih =>
    intro s d hw hd hrecv hq hrun hev
    obtain ⟨hmsg, hh⟩ := hrecv
    cases hb : decByte s.cfg d b with
    | more d' =>
      rw [decRun_more hb] at hrun
      have hle : rest.length ≤ r.length := by
        have hle := decRun_rest_le s.cfg r d'
        rwa [hrun] at hle
      rw [List.length_cons, Nat.succ_sub hle] at hev ⊢
      rw [List.replicate_succ, List.cons_append] at hev
      rw [run_succ (step_reads_more hw ⟨hev, hq, hmsg, hh⟩ hd hb),
        ← DecResult.give_dec x { s with events := ev, rxq := rest } (some d')]
      exact ih _ d' hw rfl ⟨hmsg, hh⟩ rfl hrun rfl
    | frame p =>
      rw [decRun_frame hb] at hrun
      cases hrun
      rw [List.length_cons, Nat.add_sub_cancel_left] at hev ⊢
      rw [run_one, step_reads hw ⟨hev, hq, hmsg, hh⟩ hd]
      exact feed_of_frame (s := { s with events := ev, rxq := rest }) hd hb
    | framing =>
      rw [decRun_framing hb] at hrun
      cases hrun
      rw [List.length_cons, Nat.add_sub_cancel_left] at hev ⊢
      rw [run_one, step_reads hw ⟨hev, hq, hmsg, hh⟩ hd]
      exact feed_of_framing (s := { s with events := ev, rxq := rest }) hd hb

/-- The turns of a running DEC that finds no end: it has consumed everything and still runs. -/
theorem run_decRun_timeout {rest : Bytes} {ev : List Event} (q : Bytes) :
    ∀ (s : State) (d : Decoder), s.cfg.WF → s.dec = some d → s.receiving → s.rxq = q →
      decRun s.cfg d q = (.timeoutError, rest) → s.events = List.replicate q.length .rx ++ ev →
      ∃ d', run q.length s = .next { s with events := ev, rxq := [], dec := some d' } := by
  induction q with
  | nil =>
    intro s d _ hd _ hq _ hev
    have hev : s.events = ev := hev
    have hs : s = { s with events := ev, rxq := [], dec := some d } := by rw [← hev, ← hq, ← hd]
    exact ⟨d, congrArg Host.Outcome.next hs⟩
  | cons b r ih =>
    intro s d hw hd hrecv hq hrun hev
    obtain ⟨hmsg, hh⟩ := hrecv
    rw [List.length_cons, List.replicate_succ, List.cons_append] at hev
    cases hb : decByte s.cfg d b with
    | more d' =>
      rw [decRun_more hb] at hrun
      rw [List.length_cons, run_succ (step_reads_more hw ⟨hev, hq, hmsg, hh⟩ hd hb)]
      exact ih _ d' hw rfl ⟨hmsg, hh⟩ rfl hrun rfl
    | frame p => rw [decRun_frame hb] at hrun; cases hrun
    | framing => rw [decRun_framing hb] at hrun; cases hrun

/-- Settles O28: the turns follow `decRun`, and its result is given to the caller. -/
theorem directDecComputesDecRun : Obligations.DirectDecComputesDecRun := by
  intro s d rest ev hw hop hd hrecv
  refine ⟨fun p hrun hev => ?_, fun hrun hev => ?_, fun hrun hev => ?_⟩
  · rw [run_decRun (x := .frame p) nofun s.rxq s d hw hd hrecv rfl hrun hev]
    exact decFrame_direct p hop
  · rw [run_decRun (x := .framingError) nofun s.rxq s d hw hd hrecv rfl hrun hev]
    exact decError_direct .framingError hop
  · obtain ⟨d', hturns⟩ := run_decRun_timeout s.rxq s d hw hd hrecv rfl hrun hev
    rw [run_add 1 hturns, run_one, step_deadline rfl rfl]
    exact decError_direct .timeoutError hop

end Sys2Proof.Machine
end

section
/-! PROOFS. The message forms (43_session.md R182 to R187): what a transmitter writes and what a receiver does with a
payload. -/

namespace Sys2Proof.Machine

/-! ### Requests -/

theorem transmit_of_wf {c : Command} (hc : c.WF) (s : State) : transmit c s = txWrite (commandFrame s.cfg c) s := if_pos hc

/-- Settles O36: each of the three rows is one TxWrite of its Command's frame. -/
theorem requestFormsEnterTxq : Obligations.RequestFormsEnterTxq := by
  intro s op ck pl hwrite hok hlen
  have hform : ∀ (i : Instr) (c : Command), commandOf s.cfg i = some c → c.WF → encode s.cfg i = serialise c →
      exec i s = .next { s with txq := s.txq ++ encFrame s.cfg (encode s.cfg i) } := by
    intro i c hi hc hbytes
    rw [exec_commandOf hi, transmit_of_wf hc, txWrite_ok hwrite hok, commandFrame, hbytes]
  exact ⟨hform (.reqSync ck pl) ⟨s.cfg.opSync, ck, pl⟩ rfl hlen (encodeRequest_eq_serialise _ _ _),
    hform (.reqReadReg ck pl) ⟨s.cfg.opReadReg, ck, pl⟩ rfl hlen (encodeRequest_eq_serialise _ _ _),
    hform (.reqGeneric op ck pl) ⟨op, ck, pl⟩ rfl hlen (encodeRequest_eq_serialise _ _ _)⟩

/-- Settles O37: a TxWrite that fails is a transmitter's transport error. -/
theorem writeFailureIsFatal : Obligations.WriteFailureIsFatal := by
  intro s i c hi hc hlive hh hfails
  rw [exec_commandOf hi, transmit_of_wf hc, txWrite_next.mpr ⟨hlive, hh, .inl ⟨hfails, rfl⟩⟩, State.agentError,
    State.taken_op]
  split_ifs <;> rfl

/-- The frame of a well-formed request is read back as that request. -/
theorem frameRequest_encFrame {P : Params} {i : Instr} (hP : P.WF) (hi : i.wf P = true) (hl : layerOf i = .request) :
    frameRequest P (encFrame P (encode P i)) = some i := by
  obtain ⟨op, ck, pl, rfl, hlen⟩ := exists_requestForm hP hi hl
  obtain ⟨-, -, hbytes, hcmd⟩ := requestForm_spec P op ck pl
  have hframe : decRun P decStart (encFrame P (encodeRequest op ck pl)) = (.frame (encodeRequest op ck pl), []) := by
    simpa using decRun_encFrame hP (encodeRequest op ck pl) []
  have hread : decodeRequest P (encodeRequest op ck pl) = .ok (requestForm P op ck pl, []) := by
    simpa using decodeRequest_encodeRequest P op ck hlen []
  have hwrite : commandFrame P ⟨op, ck, pl⟩ = encFrame P (encodeRequest op ck pl) ∧ Command.WF ⟨op, ck, pl⟩ :=
    ⟨by rw [commandFrame, encodeRequest_eq_serialise], hlen⟩
  rw [hbytes]
  simp only [frameRequest, hframe, hread, hcmd]
  exact if_pos hwrite

/-- At its write the transmitter is about to write its frame and then waits. -/
theorem transmitterTurn_write {s : State} {e : Exchange} (htx : s.tx = some .write) (hex : s.ex = some e) :
    transmitterTurn s = fetchFrame e.frame { s with tx := some .wait } := by
  simp [transmitterTurn, htx, hex]

/-- Settles O8: the transmitter reads the request from its frame and runs it, and stands at its wait. -/
theorem stepRunsOutstandingRequest : Obligations.StepRunsOutstandingRequest := by
  intro s i ev e hcfg hev htx hex hl hi hframe
  rw [step_cons hev, act, transmitterTurn_write (s := { s with events := ev }) htx hex, fetchFrame, hframe,
    frameRequest_encFrame hcfg hi hl, Action.out]

/-! ### Received messages -/

/-- Every form of the received level is the receiver's taking of its bytes. -/
theorem exec_received {i : Instr} {s : State} (h : layerOf i = .received) : exec i s = receive (encode s.cfg i) s := by
  cases i with
  | respSync len v rem st => rfl
  | respReadReg len v rem st => rfl
  | respGeneric op len v rem st => rfl
  | msgIllegal f => rfl
  | _ => cases h

theorem exec_decodeReceived_eq (f : Bytes) (s : State) : exec (decodeReceived s.cfg f) s = receive f s := by
  obtain ⟨hlayer, -, hbytes⟩ := decodeReceived_spec s.cfg f
  rw [exec_received hlayer, hbytes]

/-- A receiver's turn that holds a payload takes it. -/
theorem step_payload {s : State} {f : Bytes} {ev : List Event} (hev : s.events = .rx :: ev) (hmsg : s.rxMsg = some f) :
    step s = exec (decodeReceived s.cfg f) { s with events := ev, rxMsg := none } := by
  have hturn : receiverTurn { s with events := ev } =
      .run (decodeReceived s.cfg f) { s with events := ev, rxMsg := none } := by
    simp [receiverTurn, hmsg]
  rw [step_cons hev, act, hturn, Action.out]

theorem step_payload_receive {s : State} {f : Bytes} {ev : List Event} (hev : s.events = .rx :: ev)
    (hmsg : s.rxMsg = some f) : step s = receive f { s with events := ev, rxMsg := none } :=
  (step_payload hev hmsg).trans (exec_decodeReceived_eq f { s with events := ev, rxMsg := none })

/-- Settles O7: the receiver reads the payload that it holds. -/
theorem stepRunsReceivedMessage : Obligations.StepRunsReceivedMessage := by
  intro s f ev i hev hmsg hread
  cases hread
  exact step_payload hev hmsg

/-- A response form's bytes are those of a response with its opcode, value and status. -/
theorem encode_of_responseParts {P : Params} {i : Instr} {op : Byte} {v : Quad} {st : Bytes}
    (h : responseParts P i = some (op, v, st)) :
    layerOf i = .received ∧ ∃ len rem, encode P i = encodeResponse op len v rem st := by
  cases i with
  | respSync len v rem st => cases h; exact ⟨rfl, len, rem, rfl⟩
  | respReadReg len v rem st => cases h; exact ⟨rfl, len, rem, rfl⟩
  | respGeneric op len v rem st => cases h; exact ⟨rfl, len, rem, rfl⟩
  | _ => cases h

theorem parseResponse_of_responseParts {P : Params} {i : Instr} {op : Byte} {v : Quad} {st : Bytes}
    (h : responseParts P i = some (op, v, st)) (hst : st.length = P.nStatus) :
    parseResponse P (encode P i) = .ok ⟨op, v, st, encode P i⟩ := by
  obtain ⟨-, len, rem, hbytes⟩ := encode_of_responseParts h
  rw [hbytes, parseResponse_encodeResponse P op len v rem hst]

/-! ### The receiver of an exchange -/

theorem verdict_match {P : Params} {c : Command} {f : Bytes} {x : Response} (h : parseResponse P f = .ok x)
    (hop : x.opcode = c.opcode) : verdict P c f = .ok x := by
  simp [verdict, h, hop]

/-- What does not parse, or has a foreign opcode, is an error (43_session.md R185, R186). -/
theorem verdict_foreign {P : Params} {c : Command} {f : Bytes}
    (h : ∀ y, parseResponse P f = .ok y → y.opcode ≠ c.opcode) : ∃ k, verdict P c f = .error k := by
  unfold verdict
  split
  case h_1 k _ => exact ⟨k, rfl⟩
  case h_2 x hx => exact ⟨_, if_neg (h x hx)⟩

theorem receive_match {s : State} {e : Exchange} {f : Bytes} {x : Response} (hexch : exchanging s.op = true)
    (hex : s.ex = some e) (h : verdict s.cfg e.cmd f = .ok x) : receive f s = .next ((s.endExchange e).deliver x) := by
  simp [receive, hexch, hex, h]

theorem receive_foreign {s : State} {e : Exchange} {f : Bytes} (hexch : exchanging s.op = true) (hex : s.ex = some e)
    (h : ∀ y, parseResponse s.cfg f = .ok y → y.opcode ≠ e.cmd.opcode) :
    receive f s = .next { s with dec := some ⟨.hunt, []⟩, rxMsg := none } := by
  obtain ⟨k, hk⟩ := verdict_foreign h
  simp [receive, hexch, hex, hk, State.nextAttempt, decStart]

/-- The value that the matched Response gives to the operation around the exchange (43_session.md R175, R187, R195). -/
def replyResult (o : Option Running) (x : Response) : Result :=
  if o = some .sync then .ok else if o = some .readreg then .value x.value else .response x

/-- A match as one update of the state. -/
theorem endExchange_deliver {s : State} {e : Exchange} {x : Response} (hexch : exchanging s.op = true) :
    (s.endExchange e).deliver x = { s with
      ex := none, exDone := some true, dec := none, rxMsg := none, tx := none, op := none,
      late := s.late ++ lateOf e s.tx, psState := if s.op = some .sync then .synced else s.psState,
      res := some (replyResult s.op x) } := by
  rw [State.deliver, State.endExchange_op]
  match hop : s.op with
  | some .sync => rfl
  | some .readreg => rfl
  | some .exec => rfl
  | some .dec => simp [hop, exchanging] at hexch
  | some .rstseq => simp [hop, exchanging] at hexch
  | none => simp [hop, exchanging] at hexch

/-- Settles O38: the form's bytes parse to its parts, which match. -/
theorem matchingReplyEndsTheExchange : Obligations.MatchingReplyEndsTheExchange := by
  intro s i v st e hexch hex hparts hst
  obtain ⟨hlayer, -⟩ := encode_of_responseParts hparts
  have hparse := parseResponse_of_responseParts hparts hst
  rw [exec_received hlayer, receive_match hexch hex (verdict_match hparse rfl), endExchange_deliver hexch]
  cases s.tx <;> rfl

/-- Settles O39: the form's bytes parse to an opcode that does not match. -/
theorem mismatchedReplyProlongsTheLoop : Obligations.MismatchedReplyProlongsTheLoop := by
  intro s i op v st e hexch hex hparts hst hne
  obtain ⟨hlayer, -⟩ := encode_of_responseParts hparts
  rw [exec_received hlayer]
  refine receive_foreign hexch hex fun y hy => ?_
  rw [parseResponse_of_responseParts hparts hst] at hy
  cases hy
  exact hne

theorem parseResponse_msgIllegal {P : Params} {f : Bytes} (h : (Instr.msgIllegal f).wf P = true) :
    parseResponse P f = .error .parseError := by
  rcases msgIllegal_wf_iff.mp h with hshort | hdir
  · exact parseResponse_short hshort
  · rw [List.head?_eq_getElem?] at hdir
    exact parseResponse_wrongDirection hdir

/-- Outside an exchange a payload is a PARSE requested directly (log 14). -/
theorem receive_of_idle {s : State} (h : s.idle) (f : Bytes) :
    receive f s = .next { s with res := some (parseResult s.cfg f) } := by
  have hnot : ¬ exchanging s.op = true := by simp [h.1, exchanging]
  rw [receive, if_neg hnot, whenIdle_of_idle h, State.finish_of_idle h]

/-- Settles O40: PARSE of what is no response is ParseError, of a response form its parts. -/
theorem illegalMessageIsParseError : Obligations.IllegalMessageIsParseError := by
  intro s f hwf
  have hillegal := parseResponse_msgIllegal hwf
  refine ⟨fun e hexch hex => receive_foreign hexch hex ?_, fun hidle => ⟨?_, fun i op v st hparts hst => ?_⟩⟩
  · intro y hy
    rw [hillegal] at hy
    cases hy
  · rw [exec, execMsgIllegal, receive_of_idle hidle, parseResult, hillegal]
  · obtain ⟨hlayer, -⟩ := encode_of_responseParts hparts
    rw [exec_received hlayer, receive_of_idle hidle, parseResult, parseResponse_of_responseParts hparts hst]

end Sys2Proof.Machine
end

section
/-! PROOFS. The requests of the caller (43_session.md R170 to R173, R181, R192), the reset sequence (42_linecontroller.md
section 2) and the transmitter's loop (43_session.md R183). -/

namespace Sys2Proof.Machine

/-! ### Requests, and their refusal -/

/-- Settles O5: the port carries an operation, which runs. -/
theorem stepRunsRequestedOperation : Obligations.StepRunsRequestedOperation := by
  intro s i ev hev hl
  have hop : isOperation i = true := by simp [isOperation, hl]
  rw [step_cons hev, act, if_pos hop, Action.out]

/-- Every operation asks first whether it may be requested (log 26). -/
theorem operation_whenIdle {i : Instr} (hl : layerOf i = .operation) (s : State) : ∃ k, exec i s = whenIdle s k := by
  cases i <;> simp [layerOf] at hl <;>
    simp only [exec, execEnc, execDec, execMksync, execMkrdreg, execSer, execParse, execSetlines, execRstseq, execConnect,
      execSync, execExec, execReadreg] <;>
    exact ⟨_, rfl⟩

theorem whenIdle_of_failed {s : State} (h : s.psState = .failed) (k : State → Out) :
    whenIdle s k = .refused .sessionFailed := if_pos h

theorem whenIdle_of_busy {s : State} (hlive : s.psState ≠ .failed) (hop : s.op ≠ none) (k : State → Out) :
    whenIdle s k = .refused .busy := by
  rw [whenIdle, if_neg hlive, if_pos (Option.isSome_iff_ne_none.mpr hop)]

theorem whenState_of_ne {s : State} {p : SessionState} (h : s.psState ≠ p) (k : State → Out) :
    whenState p s k = .refused .wrongState := if_neg h

theorem whenOpen_of_disconnected {s : State} (h : s.psState = .disconnected) (k : State → Out) :
    whenOpen s k = .refused .wrongState := if_neg (by simp [h])

/-- Settles O49: the check that every operation begins with, and behind it the session state that each asks for. -/
theorem operationsAreRefusedOutsideTheirState : Obligations.OperationsAreRefusedOutsideTheirState := by
  intro s i hl
  obtain ⟨k, hk⟩ := operation_whenIdle hl s
  refine ⟨fun hfailed => ?_, fun hlive hop => ?_, fun hidle => ⟨fun hp path baud => ?_, fun hp => ?_, fun hp c a => ⟨?_, ?_⟩,
    fun hp d r => ⟨?_, ?_, ?_⟩⟩⟩
  · rw [hk, whenIdle_of_failed hfailed]
  · rw [hk, whenIdle_of_busy hlive hop]
  · rw [exec, execConnect, whenIdle_of_idle hidle, whenState_of_ne hp]
  · rw [exec, execSync, whenIdle_of_idle hidle, whenState_of_ne hp]
  · rw [exec, execExec, whenIdle_of_idle hidle, whenState_of_ne hp]
  · rw [exec, execReadreg, whenIdle_of_idle hidle, whenState_of_ne hp]
  · rw [exec, execSetlines, whenIdle_of_idle hidle, whenOpen_of_disconnected hp]
  · rw [exec, execRstseq, whenIdle_of_idle hidle, whenOpen_of_disconnected hp]
  · rw [exec, execDec, whenIdle_of_idle hidle, whenOpen_of_disconnected hp]

/-- Settles O31: the payload is no Command, which SER and EXEC ask for. -/
theorem longPayloadIsRefused : Obligations.LongPayloadIsRefused := by
  intro s c hidle hlong
  have hnot : ¬ c.WF := Nat.not_le.mpr hlong
  refine ⟨?_, fun hsynced => ?_⟩
  · rw [exec, execSer, whenIdle_of_idle hidle, whenCommand, if_neg hnot]
  · rw [exec, execExec, whenIdle_of_idle hidle, whenState_of_eq hsynced, whenCommand, if_neg hnot]

/-! ### CONNECT and EXEC -/

/-- Settles O47: the open call succeeds and its handle is recorded, or fails and the session is aborted without one. -/
theorem connectOpensOrFails : Obligations.ConnectOpensOrFails := by
  intro s path baud hinv hop hdisc
  have hidle : s.idle := ⟨hop, by simp [hdisc]⟩
  have hnone : s.handle = none := hinv.1 hdisc
  rw [exec, execConnect, whenIdle_of_idle hidle, whenState_of_eq hdisc, openTransport]
  refine ⟨fun hok => ⟨Config.openHandle path baud s.freeTick, ?_⟩, fun hfails => ⟨s.taken.transportError, ?_⟩⟩
  · rw [transportCall_ok hok, hop]
    rfl
  · rw [transportCall_fails hfails]
    exact ⟨rfl, rfl, rfl, hnone, rfl, rfl, rfl, rfl, rfl, rfl, rfl⟩

/-- Settles O48: the preconditions hold, and both operations start an exchange. -/
theorem execStartsBothAgents : Obligations.ExecStartsBothAgents := by
  intro s c a hidle hsynced hh
  refine ⟨fun hlen => ?_, ?_⟩
  · rw [exec, execExec, whenIdle_of_idle hidle, whenState_of_eq hsynced, whenCommand_of_wf hlen, whenHandle_of_handle hh]
    rfl
  · rw [exec, execReadreg, whenIdle_of_idle hidle, whenState_of_eq hsynced, whenHandle_of_handle hh]
    rfl

/-! ### The line controller -/

/-- Settles O42: the failing side of SETLINES, in full. -/
theorem setlinesFailureFreesTheLines : Obligations.SetlinesFailureFreesTheLines := by
  intro s d r hidle hopen hh hfails
  rw [execSetlines_of_open d r hidle hopen hh, if_pos hfails]
  rfl

theorem execRstseq_of_open {s : State} (hidle : s.idle) (hopen : s.isOpen) (hh : s.handle.isSome = true) :
    exec .rstseq s = startReset .rstseq s := by
  rw [exec, execRstseq, whenIdle_of_idle hidle, whenOpen_of_open hopen, whenHandle_of_handle hh]

theorem execSync_of_connected {s : State} (hidle : s.idle) (hconn : s.psState = .connected)
    (hh : s.handle.isSome = true) : exec .sync s = startReset .sync s := by
  rw [exec, execSync, whenIdle_of_idle hidle, whenState_of_eq hconn, whenHandle_of_handle hh]

/-- Settles O43: RSTSEQ and SYNC both begin with `startReset`. -/
theorem resetSequenceFirstPattern : Obligations.ResetSequenceFirstPattern := by
  intro s hidle hh
  refine ⟨fun hok hopen => ?_, fun hok hconn => ?_, fun i hfails hi => ?_⟩
  · rw [execRstseq_of_open hidle hopen hh, startReset_ok hok]
    rfl
  · rw [execSync_of_connected hidle hconn hh, startReset_ok hok]
    rfl
  · rcases hi with ⟨rfl, hopen⟩ | ⟨rfl, hconn⟩
    · rw [execRstseq_of_open hidle hopen hh, startReset_fails hfails]
      exact ⟨_, rfl, rfl, rfl, rfl, rfl⟩
    · rw [execSync_of_connected hidle hconn hh, startReset_fails hfails]
      exact ⟨_, rfl, rfl, rfl, rfl, rfl⟩

/-- The settle event in `S2` is the return of RSTSEQ (R160). -/
theorem settled_second {s : State} (h : s.seq = some .s2) : settled s = afterReset { s with seq := some .s3 } := by
  rw [settled, h]

/-- Settles O45: RSTSEQ returns to the caller, or to SYNC, which starts its exchange. -/
theorem settleEndsTheResetSequence : Obligations.SettleEndsTheResetSequence := by
  intro s ev hev hseq
  rw [step_settle hev, settled_second (s := { s with events := ev }) hseq]
  refine ⟨fun hop => ?_, fun hop => ?_⟩
  · simp only [afterReset, hop]
    rfl
  · simp only [afterReset, hop]
    rfl

/-! ### The transmitters -/

/-- At its test the transmitter stops, or goes on to write. -/
theorem step_tx_test {s : State} {d : Bool} {ev : List Event} (hev : s.events = .tx :: ev) (htx : s.tx = some .test)
    (hdone : s.exDone = some d) : step s = .next { s with events := ev, tx := if d then none else some .write } := by
  rw [step_cons hev, act]
  simp [transmitterTurn, htx, State.seesDone, hdone, Action.out]

theorem step_tx_write {s : State} {e : Exchange} {ev : List Event} (hev : s.events = .tx :: ev) (htx : s.tx = some .write)
    (hex : s.ex = some e) (hwrite : s.canWrite) (hok : ¬ State.callFails .failWrite { s with events := ev }) :
    step s = .next { s with events := ev, tx := some .wait, txq := s.txq ++ e.frame } := by
  rw [step_cons hev, act, transmitterTurn_write (s := { s with events := ev }) htx hex, fetchFrame_out]
  exact txWrite_ok (s := { s with events := ev, tx := some .wait }) hwrite hok

theorem step_retx {s : State} {ev : List Event} (hev : s.events = .retx :: ev) (htx : s.tx = some .wait) :
    step s = .next { s with events := ev, tx := some .test } := by
  rw [step_cons hev, act]
  simp [Action.out, htx, TxPos.fired]

/-- At its write a late transmitter writes the copy it owes and then waits. -/
theorem step_late_write {s : State} {k : Nat} {f : Bytes} {ev : List Event} (hev : s.events = .late k :: ev)
    (hk : s.late[k]? = some ⟨f, .write⟩) (hwrite : s.canWrite)
    (hok : ¬ State.callFails .failWrite { s with events := ev }) :
    step s = .next { s with events := ev, late := s.late.set k ⟨f, .wait⟩, txq := s.txq ++ f } := by
  have hturn : lateTurn k { s with events := ev } =
      fetchFrame f { s with events := ev, late := s.late.set k ⟨f, .wait⟩ } := by
    simp [lateTurn, hk]
  rw [step_cons hev, act, hturn, fetchFrame_out]
  exact txWrite_ok (s := { s with events := ev, late := s.late.set k ⟨f, .wait⟩ }) hwrite hok

theorem step_late_retx {s : State} {k : Nat} {f : Bytes} {ev : List Event} (hev : s.events = .lateRetx k :: ev)
    (hk : s.late[k]? = some ⟨f, .wait⟩) : step s = .next { s with events := ev, late := s.late.set k ⟨f, .test⟩ } := by
  have hmodify : (s.late.modify k fun t => { t with pos := t.pos.fired }) = s.late.set k ⟨f, .test⟩ := by
    rw [List.modify_eq_set_getElem?, hk]
    rfl
  rw [step_cons hev, act, Action.out, hmodify]

theorem step_late_test {s : State} {k : Nat} {f : Bytes} {ev : List Event} (hev : s.events = .late k :: ev)
    (hk : s.late[k]? = some ⟨f, .test⟩) : step s = .next { s with events := ev, late := s.late.eraseIdx k } := by
  rw [step_cons hev, act]
  simp [lateTurn, hk, Action.out]

/-- Settles O50: the three places of the running transmitter, then those of a late one. -/
theorem transmitterLoop : Obligations.TransmitterLoop := fun _ _ =>
  ⟨fun _ => step_tx_test, fun _ => step_tx_write, step_retx, fun _ _ => step_late_write, fun _ _ => step_late_retx,
    fun _ _ => step_late_test⟩

end Sys2Proof.Machine
end

section
/-! PROOFS. Exchanges followed to their return (43_session.md sections 3 to 5): what the receiver's turns make of noise,
foreign frames and the reply, and what retransmission and deadlines make of silence. -/

namespace Sys2Proof.Machine

/-! ### The receiver's turns -/

/-- A hunting DEC passes over noise, one turn for each byte (40_framecodec.md R100). -/
theorem run_noise {r : Bytes} {ev : List Event} (g : Bytes) :
    ∀ s : State, s.cfg.WF → s.dec = some decStart → s.receiving → s.cfg.delim ∉ g → s.rxq = g ++ r →
      s.events = List.replicate g.length .rx ++ ev → run g.length s = .next { s with events := ev, rxq := r } := by
  induction g with
  | nil =>
    intro s _ _ _ _ hrxq hev
    have hs : s = { s with events := ev, rxq := r } := by
      have hrxq : s.rxq = r := hrxq
      have hev : s.events = ev := hev
      rw [← hrxq, ← hev]
    exact congrArg Host.Outcome.next hs
  | cons b g ih =>
    intro s hw hd hrecv hg hrxq hev
    obtain ⟨hmsg, hh⟩ := hrecv
    rw [List.mem_cons, not_or] at hg
    obtain ⟨hb, hg⟩ := hg
    have hstep := step_reads_more hw ⟨hev, hrxq, hmsg, hh⟩ hd (decByte_hunt s.cfg [] b)
    rw [if_neg (Ne.symm hb), ← decStart, ← hd] at hstep
    rw [List.length_cons, run_succ hstep]
    exact ih _ hw hd ⟨hmsg, hh⟩ hg rfl rfl

/-- The turns over one frame leave its payload at the receiver. -/
theorem run_frame {s : State} {p t : Bytes} {ev : List Event} (hw : s.cfg.WF) (hexch : exchanging s.op = true)
    (hd : s.dec = some decStart) (hrecv : s.receiving) (hrxq : s.rxq = encFrame s.cfg p ++ t)
    (hev : s.events = List.replicate (encFrame s.cfg p).length .rx ++ ev) :
    run (encFrame s.cfg p).length s = .next { s with events := ev, rxq := t, dec := none, rxMsg := some p } := by
  have hrun : decRun s.cfg decStart s.rxq = (.frame p, t) := by rw [hrxq, decRun_encFrame hw]
  have hlen : s.rxq.length - t.length = (encFrame s.cfg p).length := by
    rw [hrxq, List.length_append, Nat.add_sub_cancel]
  rw [← hlen] at hev ⊢
  rw [run_decRun (x := .frame p) nofun s.rxq s decStart hw hd hrecv rfl hrun hev]
  exact decFrame_exchanging p hexch

/-- The turns over one frame and the turn that takes its payload. -/
theorem run_frame_receive {s : State} {p t : Bytes} {ev : List Event} (hw : s.cfg.WF) (hexch : exchanging s.op = true)
    (hd : s.dec = some decStart) (hrecv : s.receiving) (hrxq : s.rxq = encFrame s.cfg p ++ t)
    (hev : s.events = List.replicate ((encFrame s.cfg p).length + 1) .rx ++ ev) :
    run ((encFrame s.cfg p).length + 1) s = receive p { s with events := ev, rxq := t, dec := none, rxMsg := none } := by
  rw [List.replicate_succ', List.append_assoc] at hev
  rw [run_add 1 (run_frame hw hexch hd hrecv hrxq hev), run_one]
  exact step_payload_receive rfl rfl

/-- A frame that the receiver must not take for the reply to `c`: it does not parse or has a foreign opcode. -/
def foreignTo (P : Params) (c : Command) (p : Bytes) : Prop := ∀ y, parseResponse P p = .ok y → y.opcode ≠ c.opcode

/-- A foreign frame is consumed and changes nothing (43_session.md R185, R186). -/
theorem run_foreign {s : State} {e : Exchange} {p t : Bytes} {ev : List Event} (hw : s.cfg.WF)
    (hexch : exchanging s.op = true) (hex : s.ex = some e) (hd : s.dec = some decStart) (hrecv : s.receiving)
    (hp : foreignTo s.cfg e.cmd p) (hrxq : s.rxq = encFrame s.cfg p ++ t)
    (hev : s.events = List.replicate ((encFrame s.cfg p).length + 1) .rx ++ ev) :
    run ((encFrame s.cfg p).length + 1) s = .next { s with events := ev, rxq := t } := by
  rw [run_frame_receive hw hexch hd hrecv hrxq hev,
    receive_foreign (s := { s with events := ev, rxq := t, dec := none, rxMsg := none }) hexch hex hp, ← decStart, ← hd,
    ← hrecv.1]

/-- The turns that the receiver needs for a list of frames: one for each byte and one for each payload. -/
def frameTurns (P : Params) (fs : List Bytes) : Nat := (fs.map fun f => (encFrame P f).length + 1).sum

theorem run_foreign_frames {e : Exchange} {t : Bytes} {ev : List Event} (fs : List Bytes) :
    ∀ s : State, s.cfg.WF → exchanging s.op = true → s.ex = some e → s.dec = some decStart → s.receiving →
      (∀ f ∈ fs, foreignTo s.cfg e.cmd f) → s.rxq = fs.flatMap (encFrame s.cfg) ++ t →
      s.events = List.replicate (frameTurns s.cfg fs) .rx ++ ev →
      run (frameTurns s.cfg fs) s = .next { s with events := ev, rxq := t } := by
  induction fs with
  | nil =>
    intro s _ _ _ _ _ _ hrxq hev
    have hs : s = { s with events := ev, rxq := t } := by
      have hrxq : s.rxq = t := hrxq
      have hev : s.events = ev := hev
      rw [← hrxq, ← hev]
    exact congrArg Host.Outcome.next hs
  | cons f fs ih =>
    intro s hw hexch hex hd hrecv hfs hrxq hev
    have hturns : frameTurns s.cfg (f :: fs) = (encFrame s.cfg f).length + 1 + frameTurns s.cfg fs := by
      rw [frameTurns, List.map_cons, List.sum_cons, frameTurns]
    rw [hturns, List.replicate_add, List.append_assoc] at hev
    rw [List.flatMap_cons, List.append_assoc] at hrxq
    rw [hturns, run_add _ (run_foreign hw hexch hex hd hrecv (hfs f List.mem_cons_self) hrxq hev)]
    exact ih { s with
      events := List.replicate (frameTurns s.cfg fs) .rx ++ ev, rxq := fs.flatMap (encFrame s.cfg) ++ t }
      hw hexch hex hd hrecv (fun f' hf' => hfs f' (List.mem_cons_of_mem f hf')) rfl rfl

/-- The receiver's turns over noise, foreign frames and the reply: the operation ends with the reply. -/
theorem run_exchange {s : State} {e : Exchange} {g f t : Bytes} {fs : List Bytes} {x : Response} {ev : List Event}
    (hw : s.cfg.WF) (hexch : exchanging s.op = true) (hex : s.ex = some e) (hd : s.dec = some decStart)
    (hrecv : s.receiving) (hg : s.cfg.delim ∉ g) (hfs : ∀ f' ∈ fs, foreignTo s.cfg e.cmd f')
    (hparse : parseResponse s.cfg f = .ok x) (hop : x.opcode = e.cmd.opcode)
    (hrxq : s.rxq = g ++ fs.flatMap (encFrame s.cfg) ++ encFrame s.cfg f ++ t)
    (hev : s.events = List.replicate (g.length + frameTurns s.cfg fs + (encFrame s.cfg f).length + 1) .rx ++ ev) :
    run (g.length + frameTurns s.cfg fs + (encFrame s.cfg f).length + 1) s = .next { s with
      events := ev, rxq := t, ex := none, exDone := some true, dec := none, rxMsg := none, tx := none, op := none,
      late := s.late ++ lateOf e s.tx, psState := if s.op = some .sync then .synced else s.psState,
      res := some (replyResult s.op x) } := by
  rw [List.append_assoc, List.append_assoc] at hrxq
  rw [Nat.add_assoc, Nat.add_assoc, List.replicate_add, List.append_assoc, List.replicate_add, List.append_assoc] at hev
  rw [Nat.add_assoc, Nat.add_assoc, run_add _ (run_noise g s hw hd hrecv hg hrxq hev),
    run_add _ (run_foreign_frames fs { s with
      events := List.replicate (frameTurns s.cfg fs) .rx ++
        (List.replicate ((encFrame s.cfg f).length + 1) .rx ++ ev),
      rxq := fs.flatMap (encFrame s.cfg) ++ (encFrame s.cfg f ++ t) } hw hexch hex hd hrecv hfs rfl rfl),
    run_frame_receive (s := { s with
      events := List.replicate ((encFrame s.cfg f).length + 1) .rx ++ ev, rxq := encFrame s.cfg f ++ t })
      hw hexch hd hrecv rfl rfl,
    receive_match (s := { s with events := ev, rxq := t, dec := none, rxMsg := none }) hexch hex
      (verdict_match hparse hop)]
  exact congrArg Host.Outcome.next
    (endExchange_deliver (s := { s with events := ev, rxq := t, dec := none, rxMsg := none }) hexch)

/-! ### EXEC, READREG and SYNC to their return -/

/-- Settles O53: the exchange returns with the reply, of which READREG gives the value. -/
theorem readregReturnsAnAlignedReply : Obligations.ReadregReturnsAnAlignedReply := by
  intro s g fs f t x e ev hw hop hex hd hrecv hg hfs hparse hopc hrxq hev
  have hexch : exchanging s.op = true := by simp [hop, exchanging]
  refine ⟨_, run_exchange hw hexch hex hd hrecv hg hfs hparse hopc hrxq hev, ?_⟩
  simp [replyResult, hop]

/-- Settles O54: the exchange without noise returns with the reply. -/
theorem execIgnoresForeignFrames : Obligations.ExecIgnoresForeignFrames := by
  intro s fs f t x e ev hw hop hex hd hrecv hfs hparse hopc hrxq hev
  have hexch : exchanging s.op = true := by simp [hop, exchanging]
  have hturns : ([] : Bytes).length + frameTurns s.cfg fs + (encFrame s.cfg f).length + 1 =
      (fs.map fun f' => (encFrame s.cfg f').length + 1).sum + (encFrame s.cfg f).length + 1 := by
    rw [List.length_nil, Nat.zero_add, frameTurns]
  rw [← hturns] at hev ⊢
  refine ⟨_, run_exchange hw hexch hex hd hrecv List.not_mem_nil hfs hparse hopc hrxq hev, ?_⟩
  simp [replyResult, hop]

/-- SYNC stands at the settle wait `q` with the lines at `(d, r)` (42_linecontroller.md R161). -/
def State.syncWaits (s : State) (q : SeqStep) (d r : Bool) (ev : List Event) : State :=
  { s.linesSet d r with events := ev, seq := some q, op := some .sync, res := none }

/-- The state in which SYNC has driven the reset sequence and its exchange starts (43_session.md R175, R181). -/
def State.syncExchange (s : State) (ev : List Event) : State :=
  State.startExchange (syncCommand s.cfg) { s.linesSet true false with events := ev, op := some .sync, seq := none }

/-- The request of SYNC and two settle events start its exchange. -/
theorem run_sync_start {s : State} {ev : List Event} (hop : s.op = none) (hconn : s.psState = .connected)
    (hh : s.handle.isSome = true) (hev : s.events = .request .sync :: .settle :: .settle :: ev) :
    run 3 s = .next (s.syncExchange ev) := by
  have hidle : s.idle := ⟨hop, by simp [hconn]⟩
  have hrequest : step s = .next (s.syncWaits .s1 false true (.settle :: .settle :: ev)) := by
    rw [stepRunsRequestedOperation s .sync _ hev rfl]
    exact (resetSequenceFirstPattern { s with events := .settle :: .settle :: ev } hidle hh).2.1 nofun hconn
  have hsettle : step (s.syncWaits .s1 false true (.settle :: .settle :: ev)) =
      .next (s.syncWaits .s2 true false (.settle :: ev)) :=
    (settleAppliesTheSecondPattern (s.syncWaits .s1 false true _) (.settle :: ev) rfl rfl hh).1 nofun
  rw [run_succ hrequest, run_succ hsettle, run_one]
  exact (settleEndsTheResetSequence (s.syncWaits .s2 true false _) ev rfl rfl).2 rfl

/-- Settles O52: the reset sequence, and then the exchange with no foreign frame. -/
theorem syncSucceedsThroughNoise : Obligations.SyncSucceedsThroughNoise := by
  intro s g f t x ev hw hop hconn hh hg hrxq hparse hopc hev
  have hturns : g.length + (encFrame s.cfg f).length + 4 =
      3 + (g.length + frameTurns s.cfg [] + (encFrame s.cfg f).length + 1) := by
    rw [frameTurns, List.map_nil, List.sum_nil]
    omega
  rw [hturns, run_add _ (run_sync_start hop hconn hh hev)]
  refine ⟨_, run_exchange (s := s.syncExchange _) (fs := []) (t := t) (ev := ev) hw rfl rfl rfl ⟨rfl, hh⟩ hg
    (by simp) hparse hopc ?_ rfl, rfl, rfl, rfl, ⟨rfl, rfl, rfl, rfl⟩, rfl, rfl⟩
  rw [List.flatMap_nil, List.append_nil]
  exact hrxq

/-! ### Silence -/

/-- One round of transmitting and of a receive deadline writes one copy and leaves everything else as it was. -/
theorem run_silent_round {s : State} {e : Exchange} {ev : List Event} (hexch : exchanging s.op = true)
    (hex : s.ex = some e) (hdone : s.exDone = some false) (htx : s.tx = some .test) (hd : s.dec = some decStart)
    (hmsg : s.rxMsg = none) (hwrite : s.canWrite) (hev : s.events = .tx :: .tx :: .retx :: .deadline :: ev) :
    run 4 s = .next { s with events := ev, txq := s.txq ++ e.frame } := by
  have htest : step s = .next { s with events := .tx :: .retx :: .deadline :: ev, tx := some .write } :=
    step_tx_test hev htx hdone
  have hcopy : step { s with events := .tx :: .retx :: .deadline :: ev, tx := some .write } =
      .next { s with events := .retx :: .deadline :: ev, tx := some .wait, txq := s.txq ++ e.frame } :=
    step_tx_write rfl rfl hex hwrite nofun
  have hwait : step { s with events := .retx :: .deadline :: ev, tx := some .wait, txq := s.txq ++ e.frame } =
      .next { s with events := .deadline :: ev, tx := some .test, txq := s.txq ++ e.frame } := step_retx rfl rfl
  obtain ⟨-, hdeadline⟩ := deadlineRaisesTimeout
    { s with events := .deadline :: ev, tx := some .test, txq := s.txq ++ e.frame } decStart ev rfl hd
  rw [run_succ htest, run_succ hcopy, run_succ hwait, run_one, hdeadline hexch]
  simp [htx, hd, hmsg, decStart]

/-- Settles O55: by induction on the rounds. -/
theorem timeoutNeverEndsAnExchange : Obligations.TimeoutNeverEndsAnExchange := by
  intro s e n ev hexch hex hdone htx hd hmsg hwrite hev
  induction n generalizing s with
  | zero =>
    have hev : s.events = ev := hev
    rw [List.replicate_zero, List.flatten_nil, List.append_nil, ← hev]
    rfl
  | succ n ih =>
    rw [List.replicate_succ, List.flatten_cons, List.append_assoc] at hev
    rw [Nat.mul_succ, Nat.add_comm, run_add _ (run_silent_round hexch hex hdone htx hd hmsg hwrite hev),
      List.replicate_succ, List.flatten_cons, ← List.append_assoc]
    exact ih _ hexch hex hdone htx hd hmsg hwrite rfl

end Sys2Proof.Machine
end

section
/-! PROOFS. What every step does to the session, the exchange, the byte streams and the late transmitters, whatever its
event. -/

namespace Sys2Proof.Machine

/-! ### What an agent's turn changes -/

/-- A DEC that ends with an error changes nothing but the decoder, the receiver's payload and the operation's return. -/
theorem decError_frame {k : ErrorKind} {s t : State} (h : decError k s = .next t) :
    ∃ d m o r, t = { s with dec := d, rxMsg := m, op := o, res := r } := by
  rcases decError_next h with ⟨-, rfl⟩ | ⟨-, rfl⟩ <;> exact ⟨_, _, _, _, rfl⟩

theorem feed_frame {b : Byte} {d : Decoder} {s t : State} (hd : s.dec = some d) (h : feed b s = .next t) :
    ∃ d m o r, t = { s with dec := d, rxMsg := m, op := o, res := r } := by
  rcases feed_next h with ⟨hnone, -⟩ | ⟨-, -, ⟨d', rfl⟩ | ⟨-, p, rfl⟩ | ⟨-, rfl⟩ | ⟨-, r, rfl⟩⟩
  · simp [hd] at hnone
  all_goals exact ⟨_, _, _, _, rfl⟩

/-- RXQ when a receiver's turn is over: a running DEC has taken the head byte (20_memory.md R43). -/
def State.rxqRead (s : State) : Bytes := if s.dec.isSome ∧ s.rxMsg = none then s.rxq.tail else s.rxq

/-- The receiver's turn reads, parses and goes on, and changes nothing but the decoder, its payload, RXQ and the operation's
return; or it takes the reply, and the exchange is over. -/
theorem receiverTurn_cases {s t : State} (h : (receiverTurn s).out = .next t) :
    (∃ d m o r, t = { s with dec := d, rxMsg := m, op := o, res := r, rxq := s.rxqRead }) ∨
    (s.rxMsg ≠ none ∧ ∃ e x, s.ex = some e ∧ t = (State.endExchange e { s with rxMsg := none }).deliver x) := by
  rcases receiverTurn_next h with ⟨f, g, hmsg, hg⟩ | ⟨-, hd, rfl⟩ | ⟨d, hmsg, hd, -, ⟨hq, rfl⟩ | ⟨b, q, b', hq, hb⟩⟩
  · have hread : s.rxqRead = s.rxq := by simp [State.rxqRead, hmsg]
    rcases receive_next hg with ⟨-, e, hex, ⟨-, -, rfl⟩ | ⟨x, -, rfl⟩⟩ | ⟨-, rfl⟩
    · rw [hread]
      exact .inl ⟨_, _, _, _, rfl⟩
    · exact .inr ⟨by simp [hmsg], e, x, hex, rfl⟩
    · rw [hread]
      exact .inl ⟨_, _, _, _, rfl⟩
  · have hread : t.rxqRead = t.rxq := by simp [State.rxqRead, hd]
    rw [hread]
    exact .inl ⟨_, _, _, _, rfl⟩
  · have hread : t.rxqRead = t.rxq := by simp [State.rxqRead, hd, hmsg, hq]
    rw [hread]
    exact .inl ⟨_, _, _, _, rfl⟩
  · have hread : s.rxqRead = q := by simp [State.rxqRead, hd, hmsg, hq]
    obtain ⟨d', m, o, r, rfl⟩ := feed_frame (s := { s with rxq := q }) hd hb
    rw [hread]
    exact .inl ⟨_, _, _, _, rfl⟩

/-- What a fatal error leaves of the state (60_exceptions.md R206): the session is aborted, and the parameters, the handle,
`EX.done` and the streams are as they were. -/
def State.abortsTo (s t : State) : Prop :=
  t.aborted ∧ t.cfg = s.cfg ∧ t.handle = s.handle ∧ t.exDone = s.exDone ∧ t.rxq = s.rxq ∧ t.txq = s.txq

theorem transportError_abortsTo (s : State) : s.abortsTo s.transportError :=
  ⟨transportError_aborted s, rfl, rfl, rfl, rfl, rfl⟩

theorem agentError_abortsTo (s : State) : s.abortsTo s.agentError :=
  ⟨agentError_aborted s, State.agentError_cfg s, State.agentError_handle s, State.agentError_exDone s,
    State.agentError_rxq s, State.agentError_txq s⟩

/-- A transmitter's transport error is reported by the running operation, if there is one (log 11). -/
theorem agentError_res (s : State) :
    s.agentError.res = some (.error .transportError) ∨ (s.agentError.res = s.res ∧ s.op = none) := by
  unfold State.agentError
  split_ifs with hop
  · exact .inl rfl
  · exact .inr ⟨rfl, by simpa using hop⟩

/-- A TxWrite appends its frame, or aborts the session with TransportError as its result, or with the result already given
where no operation runs. -/
theorem txWrite_cases {f : Bytes} {s t : State} (h : txWrite f s = .next t) :
    (s.abortsTo t ∧ (t.res = some (.error .transportError) ∨ (t.res = s.res ∧ s.op = none))) ∨
    t = { s with txq := s.txq ++ f } := by
  obtain ⟨-, -, ⟨-, rfl⟩ | ⟨-, rfl⟩⟩ := txWrite_next.mp h
  · exact .inl ⟨agentError_abortsTo s.taken, agentError_res s.taken⟩
  · exact .inr rfl

/-- The request of an operation aborts the session with TransportError, connects, starts an exchange, or changes nothing but
the lines, the sequencer, the decoder and the operation with its result. -/
theorem operation_cases {i : Instr} {s t : State} (hl : layerOf i = .operation) (h : exec i s = .next t) :
    (s.abortsTo t ∧ t.res = some (.error .transportError)) ∨
    (s.psState = .disconnected ∧
      ∃ hd n b r, t = { s with handle := hd, freeTick := n, baud := b, psState := .connected, op := none, res := r }) ∨
    (((∃ c, i = .exec c) ∨ ∃ a, i = .readreg a) ∧ ∃ c o, t = State.startExchange c { s with op := o }) ∨
    (∃ a b c d q x o r, t = { s with
      lcDtr := a, lcRts := b, pinDtr := c, pinRts := d, seq := q, dec := x, op := o, res := r }) := by
  obtain ⟨-, hcases⟩ := operation_next hl h
  rcases hcases with ⟨r, rfl, -⟩ | ⟨-, -, -, rfl⟩ | ⟨d, r, -, -, -, ⟨-, rfl⟩ | ⟨-, rfl⟩⟩ |
    ⟨o, -, -, -, ⟨-, rfl⟩ | ⟨-, rfl⟩⟩ | ⟨p, b, -, hdisc, ⟨-, rfl⟩ | ⟨hd, rfl⟩⟩ | ⟨c, o, ho, -, -, rfl⟩
  · exact .inr (.inr (.inr ⟨_, _, _, _, _, _, _, _, rfl⟩))
  · exact .inr (.inr (.inr ⟨_, _, _, _, _, _, _, _, rfl⟩))
  · exact .inl ⟨transportError_abortsTo s.lineFailed, rfl⟩
  · exact .inr (.inr (.inr ⟨_, _, _, _, _, _, _, _, rfl⟩))
  · exact .inl ⟨transportError_abortsTo _, rfl⟩
  · exact .inr (.inr (.inr ⟨_, _, _, _, _, _, _, _, rfl⟩))
  · exact .inl ⟨transportError_abortsTo s.taken, rfl⟩
  · exact .inr (.inl ⟨hdisc, _, _, _, _, rfl⟩)
  · refine .inr (.inr (.inl ⟨?_, c, _, rfl⟩))
    rcases ho with ⟨rfl, -⟩ | ⟨a, rfl, -⟩
    · exact .inl ⟨c, rfl⟩
    · exact .inr ⟨a, rfl⟩

/-- The settle event aborts the session with TransportError, starts SYNC's exchange, or changes nothing but the lines, the
sequencer and the operation with its result. -/
theorem settled_cases {s t : State} (h : settled s = .next t) :
    (s.abortsTo t ∧ t.res = some (.error .transportError)) ∨
    (∃ c, t = State.startExchange c { s with seq := none }) ∨
    (∃ a b c d q o r, t = { s with lcDtr := a, lcRts := b, pinDtr := c, pinRts := d, seq := q, op := o, res := r }) := by
  rcases settled_next h with ⟨-, -, ⟨-, rfl⟩ | ⟨-, rfl⟩⟩ | ⟨-, ⟨-, rfl⟩ | ⟨-, rfl⟩⟩ | ⟨-, -, rfl⟩
  · exact .inl ⟨transportError_abortsTo s.lineFailed, rfl⟩
  · exact .inr (.inr ⟨_, _, _, _, _, _, _, rfl⟩)
  · exact .inr (.inr ⟨_, _, _, _, _, _, _, rfl⟩)
  · exact .inr (.inl ⟨_, rfl⟩)
  · exact .inr (.inr ⟨_, _, _, _, _, _, _, rfl⟩)

/-! ### The session (10_state.md R12, R13, 60_exceptions.md R206) -/

/-- The step is fatal: it aborts the session with TransportError, or with the result already given where a transmitter fails
with no operation running. -/
def State.failsAt (e : Event) (s t : State) : Prop :=
  s.abortsTo t ∧
  (t.res = some (.error .transportError) ∨ (t.res = s.res ∧ s.op = none ∧ (s.tx ≠ none ∨ ∃ k, e = .late k)))

/-- The step is not fatal: the parameters stay, and so do the session tag and the handle, unless CONNECT opens the transport
or a SYNC is over. -/
def State.goesOn (s t : State) : Prop :=
  t.cfg = s.cfg ∧
  ((t.psState = s.psState ∧ t.handle = s.handle) ∨
   (s.psState = .disconnected ∧ t.psState = .connected) ∨
   (s.op = some .sync ∧ t.psState = .synced ∧ t.handle = s.handle))

theorem goesOn_of_eq {s t : State} (hcfg : t.cfg = s.cfg) (hps : t.psState = s.psState) (hh : t.handle = s.handle) :
    s.goesOn t := ⟨hcfg, .inl ⟨hps, hh⟩⟩

theorem operation_session {i : Instr} {e : Event} {s t : State} (hl : layerOf i = .operation) (h : exec i s = .next t) :
    s.failsAt e t ∨ s.goesOn t := by
  rcases operation_cases hl h with ⟨habort, hres⟩ | ⟨hdisc, _, _, _, _, rfl⟩ | ⟨-, _, _, rfl⟩ |
    ⟨_, _, _, _, _, _, _, _, rfl⟩
  · exact .inl ⟨habort, .inl hres⟩
  · exact .inr ⟨rfl, .inr (.inl ⟨hdisc, rfl⟩)⟩
  · exact .inr (goesOn_of_eq rfl rfl rfl)
  · exact .inr (goesOn_of_eq rfl rfl rfl)

theorem settled_session {e : Event} {s t : State} (h : settled s = .next t) : s.failsAt e t ∨ s.goesOn t := by
  rcases settled_cases h with ⟨habort, hres⟩ | ⟨_, rfl⟩ | ⟨_, _, _, _, _, _, _, rfl⟩
  · exact .inl ⟨habort, .inl hres⟩
  · exact .inr (goesOn_of_eq rfl rfl rfl)
  · exact .inr (goesOn_of_eq rfl rfl rfl)

theorem receiverTurn_session {s t : State} (h : (receiverTurn s).out = .next t) : s.goesOn t := by
  rcases receiverTurn_cases h with ⟨_, _, _, _, rfl⟩ | ⟨-, e, x, -, rfl⟩
  · exact goesOn_of_eq rfl rfl rfl
  · obtain ⟨r, p, heq, hp⟩ := deliver_cases x (State.endExchange e { s with rxMsg := none })
    rw [heq]
    rcases hp with rfl | ⟨hop, rfl⟩
    · exact goesOn_of_eq rfl rfl rfl
    · exact ⟨rfl, .inr (.inr ⟨hop, rfl, rfl⟩)⟩

theorem transmitterTurn_session {e : Event} {s t : State} (h : (transmitterTurn s).out = .next t) :
    s.failsAt e t ∨ s.goesOn t := by
  rcases transmitterTurn_next h with rfl | ⟨_, -, -, rfl⟩ | ⟨_, -, htx, hw⟩
  · exact .inr (goesOn_of_eq rfl rfl rfl)
  · exact .inr (goesOn_of_eq rfl rfl rfl)
  · rcases txWrite_cases hw with ⟨habort, hres⟩ | rfl
    · exact .inl ⟨habort, hres.imp_right fun ⟨hres, hop⟩ => ⟨hres, hop, .inl (by simp [htx])⟩⟩
    · exact .inr (goesOn_of_eq rfl rfl rfl)

theorem lateTurn_session {k : Nat} {s t : State} (h : (lateTurn k s).out = .next t) :
    s.failsAt (.late k) t ∨ s.goesOn t := by
  rcases lateTurn_next h with rfl | ⟨_, -, -, rfl⟩ | ⟨_, -, -, hw⟩
  · exact .inr (goesOn_of_eq rfl rfl rfl)
  · exact .inr (goesOn_of_eq rfl rfl rfl)
  · rcases txWrite_cases hw with ⟨habort, hres⟩ | rfl
    · exact .inl ⟨habort, hres.imp_right fun ⟨hres, hop⟩ => ⟨hres, hop, .inr ⟨k, rfl⟩⟩⟩
    · exact .inr (goesOn_of_eq rfl rfl rfl)

/-- A step is fatal, or the session goes on. -/
theorem act_session {e : Event} {s t : State} (h : (act e s).out = .next t) : s.failsAt e t ∨ s.goesOn t :=
  act_ind (R := fun s t e => s.failsAt e t ∨ s.goesOn t) h
    (hreq := fun _ _ hl hi => operation_session hl hi)
    (harr := fun _ _ => .inr (goesOn_of_eq rfl rfl rfl))
    (htake := fun _ => .inr (goesOn_of_eq rfl rfl rfl))
    (hrf := fun _ _ _ => .inl ⟨transportError_abortsTo _, .inl rfl⟩)
    (hset := fun _ hs => settled_session hs)
    (hretx := fun _ => .inr (goesOn_of_eq rfl rfl rfl))
    (hid := fun _ _ => .inr (goesOn_of_eq rfl rfl rfl))
    (hdl := fun _ _ _ hk => by
      obtain ⟨_, _, _, _, rfl⟩ := decError_frame hk
      exact .inr (goesOn_of_eq rfl rfl rfl))
    (hrx := fun _ hturn => .inr (receiverTurn_session hturn))
    (htx := fun _ hturn => transmitterTurn_session hturn)
    (hlate := fun k he hturn => he ▸ lateTurn_session hturn)
    (hlr := fun _ _ => .inr (goesOn_of_eq rfl rfl rfl))

theorem step_session {s t : State} (h : step s = .next t) : s.failsAt s.upcoming t ∨ s.goesOn t :=
  act_session (s := s.taken) ((step_out s).symm.trans h)

theorem rank_le_failed (p : SessionState) : p.rank ≤ SessionState.failed.rank := by
  cases p <;> decide

/-- Settles O59: a fatal step leads to the last tag; CONNECT and SYNC lead to the next one. -/
theorem sessionNeverGoesBack : Obligations.SessionNeverGoesBack := by
  intro s t hinv hstep
  rcases step_session hstep with ⟨⟨⟨hfailed, -⟩, hcfg, hh, -⟩, -⟩ |
    ⟨hcfg, ⟨hps, hh⟩ | ⟨hdisc, hconn⟩ | ⟨hop, hsynced, hh⟩⟩
  · exact ⟨hfailed ▸ rank_le_failed _, fun h hs => hh.trans hs, hcfg⟩
  · exact ⟨hps ▸ Nat.le_refl _, fun h hs => hh.trans hs, hcfg⟩
  · have hnone : s.handle = none := by
      obtain ⟨-, -, ⟨hclosed, -⟩, -⟩ := hinv
      exact hclosed hdisc
    refine ⟨by rw [hdisc, hconn]; decide, fun h hs => ?_, hcfg⟩
    simp [hnone] at hs
  · have hopen : s.isOpen := hinv.open_of_running (by simp [hop])
    refine ⟨?_, fun h hs => hh.trans hs, hcfg⟩
    rw [hsynced]
    rcases hopen with hp | hp
    · rw [hp]
      decide
    · rw [hp]

/-- Settles O60: the step is a fatal one; a running transmitter, whose operation runs, leaves the late ones. -/
theorem fatalEntryAbortsTheSession : Obligations.FatalEntryAbortsTheSession := by
  intro s t hinv hstep hlive hfailed
  rcases step_session hstep with ⟨⟨haborted, -, hh, hdone, hrxq, htxq⟩, hres⟩ |
    ⟨-, ⟨hps, -⟩ | ⟨-, hconn⟩ | ⟨-, hsynced, -⟩⟩
  · obtain ⟨-, hop, hex, hquiet, hrest, hlate⟩ := haborted
    refine ⟨hop, hquiet, hrest, hlate, hh, hex, hdone, hrxq, htxq, hres.imp_right ?_⟩
    rintro ⟨hres, hidle, htx | hk⟩
    · exact absurd hidle (hinv.running_of_busy fun hq => htx hq.2.2)
    · exact ⟨hres, hidle, hk⟩
  · exact absurd (hps.symm.trans hfailed) hlive
  · simp [hconn] at hfailed
  · simp [hsynced] at hfailed

/-! ### The exchange (10_state.md R18, R19) -/

/-- What a step can do to `EX.cmd`, `EX.frame` and `EX.done`: nothing, end the exchange by the receiver, begin one, or
abort. -/
def State.exchangeMoves (e : Event) (s t : State) : Prop :=
  (t.ex = s.ex ∧ t.exDone = s.exDone) ∨
  (e = .rx ∧ s.ex.isSome = true ∧ t.ex = none ∧ t.exDone = some true ∧ t.op = none) ∨
  ((∃ c, t.ex = some ⟨c, encFrame s.cfg (serialise c)⟩) ∧ t.exDone = some false ∧
    ((∃ c, e = .request (.exec c)) ∨ (∃ a, e = .request (.readreg a)) ∨ e = .settle)) ∨
  (t.psState = .failed ∧ t.ex = none ∧ t.exDone = s.exDone)

theorem exchangeMoves_of_abortsTo {e : Event} {s t : State} (h : s.abortsTo t) : s.exchangeMoves e t := by
  obtain ⟨⟨hfailed, -, hex, -⟩, -, -, hdone, -⟩ := h
  exact .inr (.inr (.inr ⟨hfailed, hex, hdone⟩))

theorem txWrite_exchange {e : Event} {f : Bytes} {s t : State} (h : txWrite f s = .next t) : s.exchangeMoves e t := by
  rcases txWrite_cases h with ⟨habort, -⟩ | rfl
  · exact exchangeMoves_of_abortsTo habort
  · exact .inl ⟨rfl, rfl⟩

theorem operation_exchange {i : Instr} {s t : State} (hl : layerOf i = .operation) (h : exec i s = .next t) :
    s.exchangeMoves (.request i) t := by
  rcases operation_cases hl h with ⟨habort, -⟩ | ⟨-, _, _, _, _, rfl⟩ | ⟨hi, c, _, rfl⟩ | ⟨_, _, _, _, _, _, _, _, rfl⟩
  · exact exchangeMoves_of_abortsTo habort
  · exact .inl ⟨rfl, rfl⟩
  · refine .inr (.inr (.inl ⟨⟨c, rfl⟩, rfl, ?_⟩))
    rcases hi with ⟨c, rfl⟩ | ⟨a, rfl⟩
    · exact .inl ⟨c, rfl⟩
    · exact .inr (.inl ⟨a, rfl⟩)
  · exact .inl ⟨rfl, rfl⟩

theorem settled_exchange {s t : State} (h : settled s = .next t) : s.exchangeMoves .settle t := by
  rcases settled_cases h with ⟨habort, -⟩ | ⟨c, rfl⟩ | ⟨_, _, _, _, _, _, _, rfl⟩
  · exact exchangeMoves_of_abortsTo habort
  · exact .inr (.inr (.inl ⟨⟨c, rfl⟩, rfl, .inr (.inr rfl)⟩))
  · exact .inl ⟨rfl, rfl⟩

theorem receiverTurn_exchange {s t : State} (h : (receiverTurn s).out = .next t) : s.exchangeMoves .rx t := by
  rcases receiverTurn_cases h with ⟨_, _, _, _, rfl⟩ | ⟨-, e, x, hex, rfl⟩
  · exact .inl ⟨rfl, rfl⟩
  · exact .inr (.inl ⟨rfl, by simp [hex], by simp, by simp, by simp⟩)

theorem transmitterTurn_exchange {e : Event} {s t : State} (h : (transmitterTurn s).out = .next t) :
    s.exchangeMoves e t := by
  rcases transmitterTurn_next h with rfl | ⟨_, -, -, rfl⟩ | ⟨_, -, -, hw⟩
  · exact .inl ⟨rfl, rfl⟩
  · exact .inl ⟨rfl, rfl⟩
  · exact txWrite_exchange (s := { s with tx := some .wait }) hw

theorem lateTurn_exchange {e : Event} {k : Nat} {s t : State} (h : (lateTurn k s).out = .next t) :
    s.exchangeMoves e t := by
  rcases lateTurn_next h with rfl | ⟨_, -, -, rfl⟩ | ⟨l, -, -, hw⟩
  · exact .inl ⟨rfl, rfl⟩
  · exact .inl ⟨rfl, rfl⟩
  · exact txWrite_exchange (s := { s with late := s.late.set k { l with pos := .wait } }) hw

theorem act_exchange {e : Event} {s t : State} (h : (act e s).out = .next t) : s.exchangeMoves e t :=
  act_ind (R := fun s t e => s.exchangeMoves e t) h
    (hreq := fun _ he hl hi => he ▸ operation_exchange hl hi)
    (harr := fun _ _ => .inl ⟨rfl, rfl⟩)
    (htake := fun _ => .inl ⟨rfl, rfl⟩)
    (hrf := fun _ _ _ => exchangeMoves_of_abortsTo (transportError_abortsTo _))
    (hset := fun he hs => he ▸ settled_exchange hs)
    (hretx := fun _ => .inl ⟨rfl, rfl⟩)
    (hid := fun _ _ => .inl ⟨rfl, rfl⟩)
    (hdl := fun _ _ _ hk => by
      obtain ⟨_, _, _, _, rfl⟩ := decError_frame hk
      exact .inl ⟨rfl, rfl⟩)
    (hrx := fun he hturn => he ▸ receiverTurn_exchange hturn)
    (htx := fun _ hturn => transmitterTurn_exchange hturn)
    (hlate := fun _ _ hturn => lateTurn_exchange hturn)
    (hlr := fun _ _ => .inl ⟨rfl, rfl⟩)

/-- Settles O58: every event, one way or another. -/
theorem completionSignalHasOneWriter : Obligations.CompletionSignalHasOneWriter := by
  intro s t hstep
  exact act_exchange (s := s.taken) ((step_out s).symm.trans hstep)

/-! ### The byte streams (20_memory.md R41, R43, R45) -/

/-- What a step can do to TXQ: nothing, lose its head to the environment, or grow by the frame of the transmitter whose turn
it is. -/
def State.txqMoves (e : Event) (s t : State) : Prop :=
  t.txq = s.txq ∨ (e = .take ∧ t.txq = s.txq.tail) ∨
  (e = .tx ∧ ∃ x, s.ex = some x ∧ t.txq = s.txq ++ x.frame) ∨
  (∃ k l, e = .late k ∧ s.late[k]? = some l ∧ t.txq = s.txq ++ l.frame)

theorem receiverTurn_txq {s t : State} (h : (receiverTurn s).out = .next t) : t.txq = s.txq := by
  rcases receiverTurn_cases h with ⟨_, _, _, _, rfl⟩ | ⟨-, e, x, -, rfl⟩
  · rfl
  · simp

theorem txWrite_txq {f : Bytes} {s t : State} (h : txWrite f s = .next t) : t.txq = s.txq ∨ t.txq = s.txq ++ f := by
  rcases txWrite_cases h with ⟨⟨-, -, -, -, -, htxq⟩, -⟩ | rfl
  · exact .inl htxq
  · exact .inr rfl

theorem transmitterTurn_txq {s t : State} (h : (transmitterTurn s).out = .next t) : s.txqMoves .tx t := by
  rcases transmitterTurn_next h with rfl | ⟨_, -, -, rfl⟩ | ⟨x, hex, -, hw⟩
  · exact .inl rfl
  · exact .inl rfl
  · exact (txWrite_txq hw).imp_right fun hgrown => .inr (.inl ⟨rfl, x, hex, hgrown⟩)

theorem lateTurn_txq {k : Nat} {s t : State} (h : (lateTurn k s).out = .next t) : s.txqMoves (.late k) t := by
  rcases lateTurn_next h with rfl | ⟨_, -, -, rfl⟩ | ⟨l, hl, -, hw⟩
  · exact .inl rfl
  · exact .inl rfl
  · exact (txWrite_txq hw).imp_right fun hgrown => .inr (.inr ⟨k, l, rfl, hl, hgrown⟩)

theorem act_txq {e : Event} {s t : State} (h : (act e s).out = .next t) : s.txqMoves e t :=
  act_ind (R := fun s t e => s.txqMoves e t) h
    (hreq := fun _ _ hl hi => .inl (streams_eq_iff.mp (operation_streams hl hi)).2)
    (harr := fun _ _ => .inl rfl)
    (htake := fun he => .inr (.inl ⟨he, rfl⟩))
    (hrf := fun _ _ _ => .inl rfl)
    (hset := fun _ hs => .inl (streams_eq_iff.mp (settled_streams hs)).2)
    (hretx := fun _ => .inl rfl)
    (hid := fun _ _ => .inl rfl)
    (hdl := fun _ _ _ hk => by
      obtain ⟨_, _, _, _, rfl⟩ := decError_frame hk
      exact .inl rfl)
    (hrx := fun _ hturn => .inl (receiverTurn_txq hturn))
    (htx := fun he hturn => he ▸ transmitterTurn_txq hturn)
    (hlate := fun _ he hturn => he ▸ lateTurn_txq hturn)
    (hlr := fun _ _ => .inl rfl)

/-- Settles O56: every event, one way or another. -/
theorem txqGrowsByWholeFrames : Obligations.TxqGrowsByWholeFrames := by
  intro s t hstep
  exact act_txq (s := s.taken) ((step_out s).symm.trans hstep)

/-- RXQ after an event: an arriving byte is queued, the receiver's turn takes a byte, and nothing else moves it. -/
def State.rxqAfter (e : Event) (s : State) : Bytes :=
  match e with
  | .arrive b => s.rxq ++ [b]
  | .rx => s.rxqRead
  | _ => s.rxq

theorem rxqAfter_other {e : Event} (harr : ∀ b, e ≠ .arrive b) (hrx : e ≠ .rx) (s : State) : s.rxqAfter e = s.rxq := by
  cases e with
  | arrive b => exact absurd rfl (harr b)
  | rx => exact absurd rfl hrx
  | _ => rfl

theorem receiverTurn_rxq {s t : State} (h : (receiverTurn s).out = .next t) : t.rxq = s.rxqRead := by
  rcases receiverTurn_cases h with ⟨_, _, _, _, rfl⟩ | ⟨hmsg, e, x, -, rfl⟩
  · rfl
  · simp [State.rxqRead, hmsg]

theorem txWrite_rxq {f : Bytes} {s t : State} (h : txWrite f s = .next t) : t.rxq = s.rxq := by
  rcases txWrite_cases h with ⟨⟨-, -, -, -, hrxq, -⟩, -⟩ | rfl
  · exact hrxq
  · rfl

theorem transmitterTurn_rxq {s t : State} (h : (transmitterTurn s).out = .next t) : t.rxq = s.rxq := by
  rcases transmitterTurn_next h with rfl | ⟨_, -, -, rfl⟩ | ⟨_, -, -, hw⟩
  · rfl
  · rfl
  · exact (txWrite_rxq hw).trans rfl

theorem lateTurn_rxq {k : Nat} {s t : State} (h : (lateTurn k s).out = .next t) : t.rxq = s.rxq := by
  rcases lateTurn_next h with rfl | ⟨_, -, -, rfl⟩ | ⟨_, -, -, hw⟩
  · rfl
  · rfl
  · exact (txWrite_rxq hw).trans rfl

theorem act_rxq {e : Event} {s t : State} (h : (act e s).out = .next t) : t.rxq = s.rxqAfter e :=
  act_ind (R := fun s t e => t.rxq = s.rxqAfter e) h
    (hreq := fun _ he hl hi => he ▸ (streams_eq_iff.mp (operation_streams hl hi)).1)
    (harr := fun _ he => he ▸ rfl)
    (htake := fun he => he ▸ rfl)
    (hrf := fun he _ _ => he ▸ rfl)
    (hset := fun he hs => he ▸ (streams_eq_iff.mp (settled_streams hs)).1)
    (hretx := fun he => he ▸ rfl)
    (hid := fun harr hrx => (rxqAfter_other harr hrx _).symm)
    (hdl := fun he _ _ hk => by
      obtain ⟨_, _, _, _, rfl⟩ := decError_frame hk
      exact he ▸ rfl)
    (hrx := fun he hturn => he ▸ receiverTurn_rxq hturn)
    (htx := fun he hturn => he ▸ transmitterTurn_rxq hturn)
    (hlate := fun _ he hturn => he ▸ lateTurn_rxq hturn)
    (hlr := fun _ he => he ▸ rfl)

/-- Settles O57: by `rxqAfter` of the event. -/
theorem rxqIsConsumedOnlyByDec : Obligations.RxqIsConsumedOnlyByDec := by
  intro s t hstep
  have hrxq : t.rxq = s.rxqAfter s.upcoming := act_rxq (s := s.taken) ((step_out s).symm.trans hstep)
  refine ⟨fun b he => ?_, fun he hd hmsg => ?_, fun harr hrx => ?_⟩
  · rw [hrxq, he, State.rxqAfter]
  · rw [hrxq, he, State.rxqAfter, State.rxqRead, if_pos ⟨hd, hmsg⟩]
  · by_cases he : s.upcoming = .rx
    · have hnot : ¬ (s.dec.isSome = true ∧ s.rxMsg = none) := by
        rintro ⟨hd, hmsg⟩
        rcases hrx he with hnone | hsome
        · simp [hnone] at hd
        · exact hsome hmsg
      rw [hrxq, he, State.rxqAfter, State.rxqRead, if_neg hnot]
    · rw [hrxq, rxqAfter_other harr he]

/-! ### Late transmitters (43_session.md R183, R191, R194) -/

/-- A late transmitter that owes its copy. -/
def LateTx.owes (t : LateTx) : Bool := t.pos = .write

theorem State.owed_eq (s : State) : s.owed = s.late.countP LateTx.owes := rfl

theorem owed_of_late_nil {t : State} (h : t.late = []) : t.owed = 0 := by
  rw [State.owed, h, List.countP_nil]

/-- A late transmitter that has written its copy owes it no more. -/
theorem owes_set_wait {l : List LateTx} {k : Nat} {x : LateTx} (hk : l[k]? = some x) (hx : x.pos = .write) :
    (l.set k { x with pos := .wait }).countP LateTx.owes + 1 = l.countP LateTx.owes := by
  obtain ⟨hlt, hget⟩ := List.getElem?_eq_some_iff.mp hk
  have howes : LateTx.owes l[k] = true := by simp [LateTx.owes, hget, hx]
  have hpos : 0 < l.countP LateTx.owes := List.countP_pos_iff.mpr ⟨l[k], List.getElem_mem hlt, howes⟩
  rw [List.countP_set hlt, if_pos howes, if_neg (by simp [LateTx.owes])]
  omega

/-- The retransmit event makes no late transmitter owe a copy (60_exceptions.md R214). -/
theorem owes_modify_fired (l : List LateTx) (k : Nat) :
    (l.modify k fun t => { t with pos := t.pos.fired }).countP LateTx.owes = l.countP LateTx.owes := by
  have howes : ∀ t : LateTx, LateTx.owes { t with pos := t.pos.fired } = LateTx.owes t := by
    rintro ⟨f, pos⟩
    cases pos <;> rfl
  induction l generalizing k with
  | nil => rw [List.modify_nil]
  | cons x l ih =>
    cases k with
    | zero => rw [List.modify_zero_cons, List.countP_cons, List.countP_cons, howes]
    | succ k => rw [List.modify_succ_cons, List.countP_cons, List.countP_cons, ih]

theorem txWrite_late {f : Bytes} {s t : State} (h : txWrite f s = .next t) : t.owed ≤ s.owed := by
  rcases txWrite_cases h with ⟨⟨⟨-, -, -, -, -, hlate⟩, -⟩, -⟩ | rfl
  · rw [owed_of_late_nil hlate]
    exact Nat.zero_le _
  · exact Nat.le_refl _

theorem transmitterTurn_owed {s t : State} (h : (transmitterTurn s).out = .next t) : t.owed ≤ s.owed := by
  rcases transmitterTurn_next h with rfl | ⟨_, -, -, rfl⟩ | ⟨_, -, -, hw⟩
  · exact Nat.le_refl _
  · exact Nat.le_refl _
  · exact txWrite_late (s := { s with tx := some .wait }) hw

theorem lateTurn_owed {k : Nat} {s t : State} (h : (lateTurn k s).out = .next t) :
    t.owed ≤ s.owed ∧ (t.txq ≠ s.txq → t.owed + 1 = s.owed) := by
  rcases lateTurn_next h with rfl | ⟨_, -, -, rfl⟩ | ⟨l, hl, hpos, hw⟩
  · exact ⟨Nat.le_refl _, fun hne => absurd rfl hne⟩
  · exact ⟨(List.eraseIdx_sublist s.late k).countP_le, fun hne => absurd rfl hne⟩
  · have hset : State.owed { s with late := s.late.set k { l with pos := .wait } } + 1 = s.owed := owes_set_wait hl hpos
    have hle := txWrite_late hw
    refine ⟨by omega, fun hne => ?_⟩
    rcases txWrite_cases hw with ⟨⟨-, -, -, -, -, htxq⟩, -⟩ | rfl
    · exact absurd htxq hne
    · exact hset

theorem operation_owed {i : Instr} {s t : State} (hl : layerOf i = .operation) (h : exec i s = .next t) :
    t.owed ≤ s.owed := by
  rcases operation_cases hl h with ⟨⟨⟨-, -, -, -, -, hlate⟩, -⟩, -⟩ | ⟨-, _, _, _, _, rfl⟩ | ⟨-, c, _, rfl⟩ |
    ⟨_, _, _, _, _, _, _, _, rfl⟩
  · rw [owed_of_late_nil hlate]
    exact Nat.zero_le _
  all_goals exact Nat.le_refl _

theorem settled_owed {s t : State} (h : settled s = .next t) : t.owed ≤ s.owed := by
  rcases settled_cases h with ⟨⟨⟨-, -, -, -, -, hlate⟩, -⟩, -⟩ | ⟨c, rfl⟩ | ⟨_, _, _, _, _, _, _, rfl⟩
  · rw [owed_of_late_nil hlate]
    exact Nat.zero_le _
  all_goals exact Nat.le_refl _

/-- The receiver's match leaves one late transmitter, which may owe its copy. -/
theorem receiverTurn_owed {s t : State} (h : (receiverTurn s).out = .next t) : t.owed ≤ s.owed + 1 := by
  rcases receiverTurn_cases h with ⟨_, _, _, _, rfl⟩ | ⟨-, e, x, -, rfl⟩
  · exact Nat.le_succ _
  · have hone : (lateOf e s.tx).countP LateTx.owes ≤ 1 := by
      refine List.countP_le_length.trans ?_
      cases s.tx <;> simp [lateOf]
    rw [State.owed_eq, State.deliver_late, State.endExchange_late, List.countP_append, State.owed_eq]
    exact Nat.add_le_add_left hone _

/-- Only the receiver's turn makes a late copy owed, and at most one. -/
theorem act_owed {e : Event} {s t : State} (h : (act e s).out = .next t) :
    t.owed ≤ s.owed ∨ (e = .rx ∧ t.owed ≤ s.owed + 1) :=
  act_ind (R := fun s t e => t.owed ≤ s.owed ∨ (e = .rx ∧ t.owed ≤ s.owed + 1)) h
    (hreq := fun _ _ hl hi => .inl (operation_owed hl hi))
    (harr := fun _ _ => .inl (Nat.le_refl _))
    (htake := fun _ => .inl (Nat.le_refl _))
    (hrf := fun _ _ _ => .inl (Nat.zero_le _))
    (hset := fun _ hs => .inl (settled_owed hs))
    (hretx := fun _ => .inl (Nat.le_refl _))
    (hid := fun _ _ => .inl (Nat.le_refl _))
    (hdl := fun _ _ _ hk => by
      obtain ⟨_, _, _, _, rfl⟩ := decError_frame hk
      exact .inl (Nat.le_refl _))
    (hrx := fun he hturn => .inr ⟨he, receiverTurn_owed hturn⟩)
    (htx := fun _ hturn => .inl (transmitterTurn_owed hturn))
    (hlate := fun _ _ hturn => .inl (lateTurn_owed hturn).1)
    (hlr := fun k _ => .inl (Nat.le_of_eq (owes_modify_fired _ k)))

/-- Nothing runs, the session lives and no late copy is owed: what a run that is over leaves at work. -/
def State.atRest (s : State) : Prop := s.op = none ∧ s.quiet ∧ s.resting ∧ s.owed = 0 ∧ s.psState ≠ .failed

/-- What a state at rest keeps at any event but a request. -/
def State.staysAtRest (e : Event) (s t : State) : Prop :=
  t.op = none ∧ t.res = s.res ∧ t.events = s.events ∧ t.owed = 0 ∧ t.psState ≠ .failed ∧
  (t.txq = s.txq ∨ e = .take)

theorem State.atRest.stays {e : Event} {s t : State} (h : s.atRest) (ht : t = s) : s.staysAtRest e t := by
  subst ht
  obtain ⟨hop, -, -, howed, hlive⟩ := h
  exact ⟨hop, rfl, rfl, howed, hlive, .inl rfl⟩

/-- At rest no late transmitter stands at its write. -/
theorem State.atRest.no_write {s : State} {k : Nat} {l : LateTx} (h : s.atRest) (hl : s.late[k]? = some l) :
    l.pos ≠ .write := by
  obtain ⟨-, -, -, howed, -⟩ := h
  have hnone := List.countP_eq_zero.mp (s.owed_eq.symm.trans howed) l (List.mem_of_getElem? hl)
  simpa [LateTx.owes] using hnone

theorem settled_atRest {s t : State} (hrest : s.atRest) (h : settled s = .next t) : t = s := by
  obtain ⟨-, -, hseq, -⟩ := hrest
  rcases settled_next h with ⟨hone, -⟩ | ⟨htwo, -⟩ | ⟨-, -, rfl⟩
  · simp [hseq] at hone
  · simp [hseq] at htwo
  · rfl

theorem retx_atRest {s : State} (hrest : s.atRest) : { s with tx := s.tx.map TxPos.fired } = s := by
  obtain ⟨-, ⟨-, -, htx⟩, -⟩ := hrest
  rw [fired_of_not_waiting (by simp [htx])]

theorem receiverTurn_atRest {s t : State} (hrest : s.atRest) (h : (receiverTurn s).out = .next t) : t = s := by
  obtain ⟨-, ⟨hd, hmsg, -⟩, -⟩ := hrest
  rcases receiverTurn_next h with ⟨f, g, hsome, -⟩ | ⟨-, -, rfl⟩ | ⟨d, -, hsome, -⟩
  · simp [hmsg] at hsome
  · rfl
  · simp [hd] at hsome

theorem transmitterTurn_atRest {s t : State} (hrest : s.atRest) (h : (transmitterTurn s).out = .next t) : t = s := by
  obtain ⟨-, ⟨-, -, htx⟩, -⟩ := hrest
  rcases transmitterTurn_next h with rfl | ⟨_, -, hsome, -⟩ | ⟨_, -, hsome, -⟩
  · rfl
  · simp [htx] at hsome
  · simp [htx] at hsome

/-- At rest a late transmitter's turn is its test, which it leaves for good, or nothing. -/
theorem lateTurn_atRest {e : Event} {k : Nat} {s t : State} (hrest : s.atRest) (h : (lateTurn k s).out = .next t) :
    s.staysAtRest e t := by
  rcases lateTurn_next h with rfl | ⟨_, -, -, rfl⟩ | ⟨l, hl, hpos, -⟩
  · exact hrest.stays rfl
  · obtain ⟨hop, -, -, howed, hlive⟩ := hrest
    have hle : State.owed { s with late := s.late.eraseIdx k } ≤ s.owed := (List.eraseIdx_sublist s.late k).countP_le
    exact ⟨hop, rfl, rfl, Nat.le_zero.mp (howed ▸ hle), hlive, .inl rfl⟩
  · exact absurd hpos (hrest.no_write hl)

theorem act_atRest {e : Event} {s t : State} (h : (act e s).out = .next t) :
    s.atRest → (∀ i, e ≠ .request i) → s.staysAtRest e t :=
  act_ind (R := fun s t e => s.atRest → (∀ i, e ≠ .request i) → s.staysAtRest e t) h
    (hreq := fun i he _ _ _ hno => absurd he (hno i))
    (harr := fun _ _ ⟨hop, _, _, howed, hlive⟩ _ => ⟨hop, rfl, rfl, howed, hlive, .inl rfl⟩)
    (htake := fun he ⟨hop, _, _, howed, hlive⟩ _ => ⟨hop, rfl, rfl, howed, hlive, .inr he⟩)
    (hrf := fun _ d hd ⟨_, ⟨hnone, _⟩, _⟩ _ => by simp [hnone] at hd)
    (hset := fun _ hs hrest _ => hrest.stays (settled_atRest hrest hs))
    (hretx := fun _ hrest _ => hrest.stays (retx_atRest hrest))
    (hid := fun _ _ hrest _ => hrest.stays rfl)
    (hdl := fun _ d hd _ ⟨_, ⟨hnone, _⟩, _⟩ _ => by simp [hnone] at hd)
    (hrx := fun _ hturn hrest _ => hrest.stays (receiverTurn_atRest hrest hturn))
    (htx := fun _ hturn hrest _ => hrest.stays (transmitterTurn_atRest hrest hturn))
    (hlate := fun k _ hturn hrest _ => lateTurn_atRest hrest hturn)
    (hlr := fun k _ ⟨hop, _, _, howed, hlive⟩ _ =>
      ⟨hop, rfl, rfl, (owes_modify_fired _ k).trans howed, hlive, .inl rfl⟩)

theorem State.Inv.atRest_of_runOver {s : State} (h : s.Inv) (hover : s.runOver) : s.atRest := by
  obtain ⟨⟨hop, -, -⟩, howed, hlive⟩ := hover
  obtain ⟨hquiet, hrest⟩ := h.quiet_of_idle hop
  exact ⟨hop, hquiet, hrest, howed, hlive⟩

/-- Settles O51: the bounds are `act_owed` and the late transmitter's turn; a run that is over is at rest, and no request
is left among its events. -/
theorem lateCopiesAreWrittenOnce : Obligations.LateCopiesAreWrittenOnce := by
  intro s t hstep
  have hact : (act s.upcoming s.taken).out = .next t := (step_out s).symm.trans hstep
  have howed : t.owed ≤ s.owed ∨ (s.upcoming = .rx ∧ t.owed ≤ s.owed + 1) :=
    act_owed (s := s.taken) hact
  refine ⟨howed.elim Nat.le_succ_of_le (·.2), fun hrx => howed.resolve_right fun h => hrx h.1, fun k hk htxq => ?_,
    fun hinv hover hevents => ?_⟩
  · rw [hk] at hact
    exact (lateTurn_owed (s := s.taken) hact).2 htxq
  · obtain ⟨⟨-, hres, hnone⟩, -⟩ := id hover
    obtain ⟨e, ev, hev⟩ := List.exists_cons_of_ne_nil hevents
    have hno : ∀ i, s.upcoming ≠ .request i := by
      intro i hi
      rw [upcoming_cons hev] at hi
      exact hnone i (by simp [hev, hi])
    obtain ⟨hop, hres', hevents', howed', hlive, htxq⟩ :=
      act_atRest (s := s.taken) hact (hinv.atRest_of_runOver hover) hno
    have hleft : ∀ i, Event.request i ∉ t.events := by
      intro i hi
      rw [hevents', taken_cons hev] at hi
      exact hnone i (by rw [hev]; exact List.mem_cons_of_mem e hi)
    exact ⟨⟨⟨hop, by rw [hres']; exact hres, hleft⟩, howed', hlive⟩, hres', htxq⟩

end Sys2Proof.Machine
end
